-- ==== Sys2Proof/Word.lean ====
section
/-! DEFINITION. The two word sizes of the SM83: bytes of data and 16-bit addresses (00_scope R5, R7). -/

namespace Sys2Proof

/-- One byte of data: every 8-bit register, every bus access (00_scope R5). -/
abbrev Byte := BitVec 8

/-- A 16-bit value: SP, PC, the register pairs and every address (00_scope R5). -/
abbrev Word := BitVec 16

end Sys2Proof
end

