-- ==== Sys2Proof/Machine/Bits.lean ====
section
/-! DEFINITION. Bit fields, byte order and sign extension (00_scope R7, 20_memory R60, 30_encoding R91). -/

namespace Sys2Proof.Machine

/-- `hi ++ lo` (00_scope R7). -/
def joinBytes (hi lo : Byte) : Word := hi ++ lo

/-- `v[15:8]`. -/
def hiByte (v : Word) : Byte := v.extractLsb' 8 8

/-- `v[7:0]`. -/
def loByte (v : Word) : Byte := v.extractLsb' 0 8

/-- `sext_16(b)` (00_scope R7). -/
def sext16 (v : Byte) : Word := v.signExtend 16

/-- `0xFF00 | b`, the high page (30_encoding R98). -/
def highPage (v : Byte) : Word := 0xFF00#16 ||| v.zeroExtend 16

/-- Quadrant field, bits 7:6 (30_encoding R91). -/
def fieldX (op : Byte) : Nat := op.toNat / 64

/-- Field `y`, bits 5:3 (30_encoding R91). -/
def fieldY (op : Byte) : Nat := op.toNat / 8 % 8

/-- Field `z`, bits 2:0 (30_encoding R91). -/
def fieldZ (op : Byte) : Nat := op.toNat % 8

end Sys2Proof.Machine
end

