-- ==== Sys2Proof/Config.lean ====
section
/-! DEFINITION. The parameters of 00_scope R6 that stay fixed for a run, and what an unlisted address reads as. -/

namespace Sys2Proof

/-- What a write to 0x0000..0x7FFF does to the cartridge image (00_scope R6, 20_memory R58). -/
inductive CartWrite
  | store
  | ignore
deriving DecidableEq, Repr

/-- The parameters of 00_scope R6 other than the initial bytes (ROM and INIT_MEM, which are the initial memory).
DESIGN CHOICE, log entry 1: they are a field of State that no step writes, so a statement about every state holds
for every setting. -/
structure Params where
  /-- STRICT_OPCODE: an illegal opcode also sets `halted` (30_encoding R102). -/
  strictOpcode : Bool
  /-- STRICT_ACCESS: an illegal bus access sets `fatal` and ends the step (20_memory R54). -/
  strictAccess : Bool
  /-- CART_WRITE (20_memory R58). -/
  cartWrite : CartWrite
  /-- IO_UNMAPPED: the I/O offsets that read 0xFF, rising (20_memory R56). -/
  ioUnmapped : List Nat
  /-- The length in bytes of the cartridge image ROM (10_state R35). -/
  romLength : Nat
deriving DecidableEq, Repr

/-- The defaults of 00_scope R6 for STRICT_OPCODE, STRICT_ACCESS, CART_WRITE and IO_UNMAPPED. R6 gives ROM no default,
and so no length of it: the 0x8000 here is the model's own. DESIGN CHOICE, log entry 26: the smallest length that
10_state R35 allows. -/
def Params.default : Params :=
  { strictOpcode := false, strictAccess := false, cartWrite := .store, ioUnmapped := [], romLength := 0x8000 }

/-- A set of I/O offsets, each once, in rising order, each below 128. -/
def risingOffsets : Nat → List Nat → Bool
  | _, [] => true
  | lo, off :: rest => decide (lo ≤ off) && decide (off < 128) && risingOffsets (off + 1) rest

/-- The parameters are ones 00_scope R6 allows: offsets 0..127, and an image length that is a power-of-two
multiple of 32 KiB. -/
def Params.wf (p : Params) : Bool :=
  risingOffsets 0 p.ioUnmapped && decide (p.romLength = 0x8000 * 2 ^ Nat.log2 (p.romLength / 0x8000))

/-- What an address that memory does not list reads as. DESIGN CHOICE, log entry 2: INIT_MEM and ROM are
unconstrained (10_state R33), so a claim quantifies over the initial memory (`State.init`). This byte only fixes
how such a memory is written down. -/
def Config.unlistedByte : Byte := 0x00#8

end Sys2Proof
end

