-- ==== Sys2Proof/Machine/State.lean ====
section
/-! DEFINITION. The state of the block (10_state R20 to R38), the diagnostic records, the reasons a step can stop,
and reset (70_reset_and_hazards R340). -/

namespace Sys2Proof.Machine

/-- The ten ranges of the address map (20_memory R51). -/
inductive Region
  | cartridge | vram | externalRam | wram | echoRam | oam | unusable | io | hram | ie
deriving DecidableEq, Repr

/-- The direction of a bus access (10_state R36). -/
inductive Direction
  | read
  | write
deriving DecidableEq, Repr

/-- A diagnostic record (10_state R36, 60_exceptions R311, R312). -/
inductive Diag
  | illegalAccess (region : Region) (addr : Word) (dir : Direction)
  | illegalOpcode (op : Byte) (pc : Word)
deriving DecidableEq, Repr

/-- The bytes of the address space that differ from `Config.unlistedByte`, by rising address (`Memory.wf`). -/
abbrev Memory := List Host.Cell

/-- Everything the spec gives the machine. -/
structure State where
  /-- Accumulator (10_state R20). -/
  a : Byte
  /-- Flags Z N H C in bits 7..4; bits 3..0 are 0 in every reachable state (10_state R21). -/
  f : Byte
  /-- General register (10_state R20). -/
  b : Byte
  /-- General register; the low address byte of the (0xFF00+C) loads (10_state R20). -/
  c : Byte
  /-- General register (10_state R20). -/
  d : Byte
  /-- General register (10_state R20). -/
  e : Byte
  /-- General register, high half of HL (10_state R20). -/
  h : Byte
  /-- General register, low half of HL (10_state R20). -/
  l : Byte
  /-- Stack pointer (10_state R24). -/
  sp : Word
  /-- Program counter (10_state R25). -/
  pc : Word
  /-- Master interrupt enable (10_state R28). -/
  ime : Bool
  /-- The EI delay (10_state R29). -/
  imePending : Bool
  /-- Gates the step (10_state R30). -/
  halted : Bool
  /-- Set by STOP, gates nothing (10_state R31). -/
  stopped : Bool
  /-- Cartridge window, WRAM, I/O file, HRAM and IE by bus address (10_state R33 to R35). -/
  mem : Memory
  /-- The diagnostic log, oldest record first (10_state R36). -/
  diag : List Diag
  /-- T-cycles (10_state R37). -/
  ticks : Nat
  /-- The fault state of strict access mode (10_state R38). -/
  fatal : Bool
  /-- The parameters fixed for the run (00_scope R6); no step writes them. DESIGN CHOICE, log entry 1. -/
  params : Params
deriving DecidableEq, Repr

/-- Why a step takes no further step. -/
inductive Fault
  /-- Raised by `step` alone, in a state whose `fatal` is set: "the machine takes no further step; it is a fault
  state" (10_state R38, 20_memory R54). Safe: no behaviour is given to such a state. -/
  | fatalStop
deriving DecidableEq, Repr

/-- Why an instruction has no meaning. -/
inductive Refusal
  /-- An arm of `exec` not modelled yet, by its mnemonic. No arm raises it. Safe. -/
  | notModelled (mnemonic : String)
deriving DecidableEq, Repr

/-- What one step or one instruction answers. -/
abbrev Result := Host.Outcome State Fault Refusal

/-- `init()` (70_reset_and_hazards R340) for any parameters and any initial memory: `mem` is ROM in the cartridge
window and INIT_MEM in WRAM, I/O, HRAM and IE. -/
def State.init (params : Params) (mem : Memory) : State :=
  { a := 0x01#8, f := 0xB0#8, b := 0x00#8, c := 0x13#8, d := 0x00#8, e := 0xD8#8, h := 0x01#8, l := 0x4D#8,
    sp := 0xFFFE#16, pc := 0x0100#16, ime := false, imePending := false, halted := false, stopped := false,
    mem := mem, diag := [], ticks := 0, fatal := false, params := params }

/-- The machine right after reset with the default parameters and nothing listed in memory. DESIGN CHOICE, log
entries 2 and 3: no cartridge image and no initial RAM contents are invented. -/
def State.reset : State := State.init Params.default []

end Sys2Proof.Machine
end

