-- ==== Sys2Proof/Syntax.lean ====
section
/-! DEFINITION. The instructions: one constructor for each of the 117 rows of spec/opcode_table.json
(30_encoding R100, R101, R102, R107), with operands as the assembly syntax of R105 names them. -/

namespace Sys2Proof

/-- The seven register slots of the table `r8` (30_encoding R92). Slot 6, `(HL)`, is a form of its own. -/
inductive Reg8
  | b | c | d | e | h | l | a
deriving DecidableEq, Repr

/-- The 16-bit register table `rp` (30_encoding R93). -/
inductive Reg16
  | bc | de | hl | sp
deriving DecidableEq, Repr

/-- The entries of the table `rp2` that `PUSH rr` and `POP rr` take (30_encoding R94); AF has rows of its own. -/
inductive StackPair
  | bc | de | hl
deriving DecidableEq, Repr

/-- The condition table `cc` (30_encoding R95). -/
inductive Cond
  | nz | z | nc | c
deriving DecidableEq, Repr

/-- The instructions. A bit number is a natural number below 8 and an RST vector is one of the eight page-0
addresses: `Instr.wf` checks both. -/
inductive Instr
  -- CB table, (HL) slot: rotates, shifts, swap (48_cb_prefix R272 to R286)
  | rlcHl | rrcHl | rlHl | rrHl | slaHl | sraHl | swapHl | srlHl
  -- CB table, register slots (48_cb_prefix R271 to R285)
  | rlcR (r : Reg8) | rrcR (r : Reg8) | rlR (r : Reg8) | rrR (r : Reg8)
  | slaR (r : Reg8) | sraR (r : Reg8) | swapR (r : Reg8) | srlR (r : Reg8)
  -- CB table, single bits (48_cb_prefix R287 to R292)
  | bitHl (bit : Nat) | resHl (bit : Nat) | setHl (bit : Nat)
  | bitR (bit : Nat) (r : Reg8) | resR (bit : Nat) (r : Reg8) | setR (bit : Nat) (r : Reg8)
  -- loads (40_load R120 to R142)
  | ldHlN8 (n : Byte)
  | ldABc | ldADe | ldBcA | ldDeA
  | ldAA16 (addr : Word) | ldA16A (addr : Word)
  | ldhAA8 (n : Byte) | ldhA8A (n : Byte) | ldhAC | ldhCA
  | ldHlIncA | ldAHlInc | ldHlDecA | ldAHlDec
  | ldA16Sp (addr : Word) | ldSpHl | ldHlSpE8 (n : Byte)
  -- 8-bit arithmetic and logic, (HL) and immediate sources (41_alu8 R153 to R176)
  | addAHl | addAN8 (n : Byte) | adcAHl | adcAN8 (n : Byte)
  | subAHl | subAN8 (n : Byte) | sbcAHl | sbcAN8 (n : Byte)
  | andAHl | andAN8 (n : Byte) | xorAHl | xorAN8 (n : Byte)
  | orAHl | orAN8 (n : Byte) | cpAHl | cpAN8 (n : Byte)
  -- 42_alu16 R193, 43_incdec8 R201, R203, 44_rotate_a R210 to R213
  | addSpE8 (n : Byte) | incHl | decHl
  | rlca | rrca | rla | rra
  -- stack and control (45_stack R223, R225; 46_control R231 to R246)
  | pushAf | popAf
  | jrE8 (n : Byte) | jpA16 (addr : Word) | jpHl | callA16 (addr : Word) | ret | reti
  -- miscellaneous (47_misc R250 to R259)
  | nop | halt | stop | di | ei | scf | ccf | cpl | prefixCb | daa
  -- the eleven illegal opcode bytes (30_encoding R102)
  | illegalD3 | illegalDB | illegalDD | illegalE3 | illegalE4 | illegalEB
  | illegalEC | illegalED | illegalF4 | illegalFC | illegalFD
  -- forms with a 16-bit register or a condition (R139, R190 to R192, R222, R224, R232 to R239)
  | ldRrN16 (rr : Reg16) (n : Word) | addHlRr (rr : Reg16) | incRr (rr : Reg16) | decRr (rr : Reg16)
  | pushRr (rr : StackPair) | popRr (rr : StackPair)
  | jrCcE8 (cc : Cond) (n : Byte) | jpCcA16 (cc : Cond) (addr : Word)
  | callCcA16 (cc : Cond) (addr : Word) | retCc (cc : Cond)
  -- forms with an 8-bit register (R120 to R123, R153 to R174, R200, R202)
  | ldRN8 (r : Reg8) (n : Byte) | ldRHl (r : Reg8) | ldHlR (r : Reg8)
  | addAR (r : Reg8) | adcAR (r : Reg8) | subAR (r : Reg8) | sbcAR (r : Reg8)
  | andAR (r : Reg8) | xorAR (r : Reg8) | orAR (r : Reg8) | cpAR (r : Reg8)
  | incR (r : Reg8) | decR (r : Reg8)
  -- 46_control R247 and 40_load R120
  | rstVec (vec : Byte)
  | ldRR (r : Reg8) (r' : Reg8)
deriving DecidableEq, Repr

end Sys2Proof
end

