-- ==== Sys2Proof/Machine/Operands.lean ====
section
/-! DEFINITION. Registers, pairs and single flags as operands (00_scope R8, 10_state R20 to R24, 30_encoding R92 to R95). -/

namespace Sys2Proof.Machine

/-- Write SP (10_state R24). -/
def State.setSp (s : State) (v : Word) : State := { s with sp := v }

/-- Write PC (10_state R25). -/
def State.setPc (s : State) (v : Word) : State := { s with pc := v }

/-- Write IME (10_state R28). -/
def State.setIme (s : State) (v : Bool) : State := { s with ime := v }

/-- Write `ime_pending` (10_state R29). -/
def State.setImePending (s : State) (v : Bool) : State := { s with imePending := v }

/-- Write the halted latch (10_state R30). -/
def State.setHalted (s : State) (v : Bool) : State := { s with halted := v }

/-- Write the stopped latch (10_state R31). -/
def State.setStopped (s : State) (v : Bool) : State := { s with stopped := v }

/-- Write `fatal` (10_state R38). -/
def State.setFatal (s : State) (v : Bool) : State := { s with fatal := v }

/-- Read an 8-bit register. -/
def State.getReg8 (s : State) : Reg8 → Byte
  | .b => s.b
  | .c => s.c
  | .d => s.d
  | .e => s.e
  | .h => s.h
  | .l => s.l
  | .a => s.a

/-- Write an 8-bit register. -/
def State.setReg8 (s : State) (r : Reg8) (v : Byte) : State :=
  match r with
  | .b => { s with b := v }
  | .c => { s with c := v }
  | .d => { s with d := v }
  | .e => { s with e := v }
  | .h => { s with h := v }
  | .l => { s with l := v }
  | .a => { s with a := v }

/-- AF = A ++ F (10_state R23). -/
def State.af (s : State) : Word := joinBytes s.a s.f

/-- BC = B ++ C (10_state R23). -/
def State.bc (s : State) : Word := joinBytes s.b s.c

/-- DE = D ++ E (10_state R23). -/
def State.de (s : State) : Word := joinBytes s.d s.e

/-- HL = H ++ L (10_state R23). -/
def State.hl (s : State) : Word := joinBytes s.h s.l

/-- Every write to F stores `v & 0xF0` (10_state R21). -/
def State.setF (s : State) (v : Byte) : State := { s with f := v &&& 0xF0#8 }

/-- `AF <- v` (00_scope R8). -/
def State.setAf (s : State) (v : Word) : State := { s with a := hiByte v, f := loByte v &&& 0xF0#8 }

/-- `BC <- v` (00_scope R8). -/
def State.setBc (s : State) (v : Word) : State := { s with b := hiByte v, c := loByte v }

/-- `DE <- v` (00_scope R8). -/
def State.setDe (s : State) (v : Word) : State := { s with d := hiByte v, e := loByte v }

/-- `HL <- v` (00_scope R8). -/
def State.setHl (s : State) (v : Word) : State := { s with h := hiByte v, l := loByte v }

/-- Read `rp[p]` (30_encoding R93). -/
def State.getReg16 (s : State) : Reg16 → Word
  | .bc => s.bc
  | .de => s.de
  | .hl => s.hl
  | .sp => s.sp

/-- Write `rp[p]` (30_encoding R93). -/
def State.setReg16 (s : State) (rr : Reg16) (v : Word) : State :=
  match rr with
  | .bc => s.setBc v
  | .de => s.setDe v
  | .hl => s.setHl v
  | .sp => s.setSp v

/-- Read `rp2[p]` other than AF (30_encoding R94). -/
def State.getPair (s : State) : StackPair → Word
  | .bc => s.bc
  | .de => s.de
  | .hl => s.hl

/-- Write `rp2[p]` other than AF (30_encoding R94). -/
def State.setPair (s : State) (rr : StackPair) (v : Word) : State :=
  match rr with
  | .bc => s.setBc v
  | .de => s.setDe v
  | .hl => s.setHl v

/-- F.Z, bit 7 (10_state R21). -/
def State.flagZ (s : State) : Bool := s.f.getLsbD 7

/-- F.N, bit 6. -/
def State.flagN (s : State) : Bool := s.f.getLsbD 6

/-- F.H, bit 5. -/
def State.flagH (s : State) : Bool := s.f.getLsbD 5

/-- F.C, bit 4. -/
def State.flagC (s : State) : Bool := s.f.getLsbD 4

/-- `cond(cc)` (46_control R230). -/
def State.cond (s : State) : Cond → Bool
  | .nz => !s.flagZ
  | .z => s.flagZ
  | .nc => !s.flagC
  | .c => s.flagC

end Sys2Proof.Machine
end

