-- ==== Sys2Proof/Machine/Flags.lean ====
section
/-! DEFINITION. The flag byte and every flag computation of the spec: the ALU functions (41_alu8 R150 to R152),
16-bit addition (42_alu16 R190, R194), increment and decrement (43_incdec8), the rotates and shifts (44_rotate_a,
48_cb_prefix), the bit test and DAA (47_misc R259). -/

namespace Sys2Proof.Machine

/-- The four flags (10_state R21). -/
structure Flags where
  z : Bool
  n : Bool
  h : Bool
  c : Bool
deriving DecidableEq, Repr

/-- The flag byte: Z, N, H, C in bits 7..4, bits 3..0 zero (10_state R21). -/
def Flags.byte (fl : Flags) : Byte :=
  (BitVec.ofBool fl.z ++ BitVec.ofBool fl.n ++ BitVec.ofBool fl.h ++ BitVec.ofBool fl.c ++ 0#4 : BitVec 8)

/-- Write all four flags. -/
def State.setFlags (s : State) (fl : Flags) : State := s.setF fl.byte

/-- A result byte with its flags. -/
structure AluResult where
  r : Byte
  fl : Flags
deriving DecidableEq, Repr

/-- `add8(a, b, cin)` (41_alu8 R150). -/
def add8 (a b : Byte) (cin : Bool) : AluResult :=
  let r := BitVec.ofNat 8 (a.toNat + b.toNat + cin.toNat)
  { r := r
    fl :=
      { z := decide (r = 0#8)
        n := false
        h := decide (a.toNat % 16 + b.toNat % 16 + cin.toNat > 0x0F)
        c := decide (a.toNat + b.toNat + cin.toNat > 0xFF) } }

/-- `sub8(a, b, cin)` (41_alu8 R151). -/
def sub8 (a b : Byte) (cin : Bool) : AluResult :=
  let r := BitVec.ofInt 8 ((a.toNat : Int) - b.toNat - cin.toNat)
  { r := r
    fl :=
      { z := decide (r = 0#8)
        n := true
        h := decide (a.toNat % 16 < b.toNat % 16 + cin.toNat)
        c := decide (a.toNat < b.toNat + cin.toNat) } }

/-- `and8(a, b)` (41_alu8 R152). -/
def and8 (a b : Byte) : AluResult :=
  { r := a &&& b, fl := { z := decide (a &&& b = 0#8), n := false, h := true, c := false } }

/-- `xor8(a, b)` (41_alu8 R152). -/
def xor8 (a b : Byte) : AluResult :=
  { r := a ^^^ b, fl := { z := decide (a ^^^ b = 0#8), n := false, h := false, c := false } }

/-- `or8(a, b)` (41_alu8 R152). -/
def or8 (a b : Byte) : AluResult :=
  { r := a ||| b, fl := { z := decide (a ||| b = 0#8), n := false, h := false, c := false } }

/-- The eight-bit increment; C is the flag before the instruction (43_incdec8 R200). -/
def inc8 (v : Byte) (carry : Bool) : AluResult :=
  { r := v + 1#8, fl := { z := decide (v + 1#8 = 0#8), n := false, h := decide (v.toNat % 16 = 0x0F), c := carry } }

/-- The eight-bit decrement; C is the flag before the instruction (43_incdec8 R202). -/
def dec8 (v : Byte) (carry : Bool) : AluResult :=
  { r := v - 1#8, fl := { z := decide (v - 1#8 = 0#8), n := true, h := decide (v.toNat % 16 = 0x00), c := carry } }

/-- A sixteen-bit result with its H and C. -/
structure Add16Result where
  r : Word
  h : Bool
  c : Bool
deriving DecidableEq, Repr

/-- The sum of `ADD HL,rr`: H from bit 11, C from bit 15 (42_alu16 R190). -/
def addHl16 (a b : Word) : Add16Result :=
  { r := BitVec.ofNat 16 (a.toNat + b.toNat)
    h := decide (a.toNat % 0x1000 + b.toNat % 0x1000 > 0x0FFF)
    c := decide (a.toNat + b.toNat > 0xFFFF) }

/-- `sp_add(sp, b)`: a signed offset for the value, the unsigned low-byte addition for H and C (42_alu16 R194). -/
def spAdd (sp : Word) (v : Byte) : Add16Result :=
  { r := sp + sext16 v
    h := decide (sp.toNat % 16 + v.toNat % 16 > 0x0F)
    c := decide (sp.toNat % 256 + v.toNat > 0xFF) }

/-! Rotates and shifts: each moves by one bit and takes the flag C before the instruction (41_alu8 R177). -/

/-- A byte shifted with the bit that left it. -/
structure ShiftResult where
  r : Byte
  out : Bool
deriving DecidableEq, Repr

/-- `u8((v << 1) | bit)` and bit 7. -/
def shiftLeftIn (v : Byte) (low : Bool) : ShiftResult :=
  { r := v <<< 1 ||| BitVec.ofNat 8 low.toNat, out := v.getLsbD 7 }

/-- `(v >> 1) | (bit << 7)` and bit 0. -/
def shiftRightIn (v : Byte) (high : Bool) : ShiftResult :=
  { r := v >>> 1 ||| BitVec.ofNat 8 (high.toNat * 0x80), out := v.getLsbD 0 }

/-- RLC (48_cb_prefix R271): bit 7 goes to bit 0 and to C. -/
def rlc8 (v : Byte) : ShiftResult := shiftLeftIn v (v.getLsbD 7)

/-- RRC (48_cb_prefix R273): bit 0 goes to bit 7 and to C. -/
def rrc8 (v : Byte) : ShiftResult := shiftRightIn v (v.getLsbD 0)

/-- RL (48_cb_prefix R275): through the carry. -/
def rl8 (v : Byte) (carry : Bool) : ShiftResult := shiftLeftIn v carry

/-- RR (48_cb_prefix R277): through the carry. -/
def rr8 (v : Byte) (carry : Bool) : ShiftResult := shiftRightIn v carry

/-- SLA (48_cb_prefix R279): bit 0 becomes 0. -/
def sla8 (v : Byte) : ShiftResult := shiftLeftIn v false

/-- SRA (48_cb_prefix R281): bit 7 keeps its value. -/
def sra8 (v : Byte) : ShiftResult := shiftRightIn v (v.getLsbD 7)

/-- SWAP (48_cb_prefix R283): the nibbles change places, C is cleared. -/
def swap8 (v : Byte) : ShiftResult := { r := v <<< 4 ||| v >>> 4, out := false }

/-- SRL (48_cb_prefix R285): bit 7 becomes 0. -/
def srl8 (v : Byte) : ShiftResult := shiftRightIn v false

/-- The flags of the CB rotate, shift and swap family (48_cb_prefix R270). -/
def ShiftResult.cbFlags (w : ShiftResult) : Flags := { z := decide (w.r = 0#8), n := false, h := false, c := w.out }

/-- The flags of the rotates on A: Z forced to 0 (44_rotate_a R210). -/
def ShiftResult.aFlags (w : ShiftResult) : Flags := { z := false, n := false, h := false, c := w.out }

/-- The flags of BIT; C is the flag before the instruction (48_cb_prefix R287). -/
def bitFlags (bit : Nat) (v : Byte) (carry : Bool) : Flags :=
  { z := !v.getLsbD bit, n := false, h := true, c := carry }

/-- `v & ~(1 << b)` (48_cb_prefix R289). -/
def clearBit (bit : Nat) (v : Byte) : Byte := v &&& ~~~(1#8 <<< bit)

/-- `v | (1 << b)` (48_cb_prefix R291). -/
def setBit (bit : Nat) (v : Byte) : Byte := v ||| 1#8 <<< bit

/-- The adjustment DAA adds after an addition or subtracts after a subtraction (47_misc R259). -/
def daaAdjust (lowNibble high : Bool) : Byte :=
  (if lowNibble then 0x06#8 else 0#8) ||| (if high then 0x60#8 else 0#8)

/-- DAA on A with the flags N, H and C before the instruction (47_misc R259). Both tests of the addition branch look
at A before any adjustment. -/
def daa8 (a : Byte) (n h c : Bool) : AluResult :=
  let high := if n then c else c || decide (a.toNat > 0x99)
  let adj := daaAdjust (if n then h else h || decide (a.toNat % 16 > 0x09)) high
  let r := if n then a - adj else a + adj
  { r := r, fl := { z := decide (r = 0#8), n := n, h := false, c := high } }

end Sys2Proof.Machine
end

