-- ==== Sys2Proof/Machine/Ops.lean ====
section
/-! DEFINITION. The operations every meaning is written over: memory cells, the address map, diagnostics, the bus,
byte fetch, the stack primitives, internal cycles, the illegal opcode and the EI delay. An operation that makes a
bus access takes what comes after it as a continuation, because under STRICT_ACCESS an illegal access ends the step
at that access (20_memory R54). -/

namespace Sys2Proof.Machine

/-! Memory cells. -/

/-- The byte at a cell. -/
def Memory.get : Memory → Nat → Byte
  | [], _ => Config.unlistedByte
  | (k, v) :: rest, addr => if k = addr then v else Memory.get rest addr

/-- Write one cell, keeping the addresses rising and listing nothing that equals the unlisted byte. -/
def Memory.set : Memory → Nat → Byte → Memory
  | [], addr, v => if v = Config.unlistedByte then [] else [(addr, v)]
  | (k, w) :: rest, addr, v =>
    if addr < k then (if v = Config.unlistedByte then (k, w) :: rest else (addr, v) :: (k, w) :: rest)
    else if addr = k then (if v = Config.unlistedByte then rest else (addr, v) :: rest)
    else (k, w) :: Memory.set rest addr v

/-! The address map. -/

/-- The range an address falls in (20_memory R51). -/
def regionOf (addr : Word) : Region :=
  if addr.toNat ≤ 0x7FFF then .cartridge
  else if addr.toNat ≤ 0x9FFF then .vram
  else if addr.toNat ≤ 0xBFFF then .externalRam
  else if addr.toNat ≤ 0xDFFF then .wram
  else if addr.toNat ≤ 0xFDFF then .echoRam
  else if addr.toNat ≤ 0xFE9F then .oam
  else if addr.toNat ≤ 0xFEFF then .unusable
  else if addr.toNat ≤ 0xFF7F then .io
  else if addr.toNat ≤ 0xFFFE then .hram
  else .ie

/-- The region kind column of the table of 20_memory R51. -/
def Region.legal : Region → Bool
  | .cartridge | .wram | .io | .hram | .ie => true
  | .vram | .externalRam | .echoRam | .oam | .unusable => false

/-- A number that is the address of a byte the block or the cartridge stores. -/
def isStorage (addr : Nat) : Bool := decide (addr < 0x10000) && (regionOf (BitVec.ofNat 16 addr)).legal

/-- Cells from `lo` up: addresses rising, no cell equal to the unlisted byte, every cell a stored byte. -/
def Memory.wfFrom : Nat → Memory → Bool
  | _, [] => true
  | lo, (k, v) :: rest =>
    decide (lo ≤ k) && decide (v ≠ Config.unlistedByte) && isStorage k && Memory.wfFrom (k + 1) rest

/-- The canonical form of memory. -/
def Memory.wf (m : Memory) : Bool := Memory.wfFrom 0 m

/-- Write memory. -/
def State.setMem (s : State) (m : Memory) : State := { s with mem := m }

/-! Diagnostics (00_scope R10, 10_state R36). -/

/-- Time passes: `n` T-cycles (10_state R37). -/
def State.tick (s : State) (n : Nat) : State := { s with ticks := s.ticks + n }

/-- `Internal(n)` (00_scope R9): `n` machine cycles with no bus access. -/
def internal (n : Nat) (s : State) : State := s.tick (4 * n)

/-- Append a record (10_state R36). -/
def State.log (s : State) (r : Diag) : State := { s with diag := s.diag ++ [r] }

/-- `raise IllegalAccess(region, addr, dir)`, and `fatal <- 1` under STRICT_ACCESS (20_memory R54, 60_exceptions R312). -/
def raiseIllegalAccess (addr : Word) (dir : Direction) (s : State) : State :=
  (s.log (.illegalAccess (regionOf addr) addr dir)).setFatal (s.fatal || s.params.strictAccess)

/-- The access ends the step: it is illegal and STRICT_ACCESS is set (20_memory R54). -/
def accessStops (s : State) (addr : Word) : Bool := s.params.strictAccess && !(regionOf addr).legal

/-! The bus (20_memory R52, R53). -/

/-- `io_read(addr - 0xFF00)` (20_memory R55, R56). -/
def ioRead (s : State) (addr : Word) : Byte :=
  if s.params.ioUnmapped.contains (addr.toNat - 0xFF00) then 0xFF#8 else s.mem.get addr.toNat

/-- The byte a bus read returns (20_memory R52, R54). -/
def readByte (s : State) (addr : Word) : Byte :=
  match regionOf addr with
  | .cartridge | .wram | .hram | .ie => s.mem.get addr.toNat
  | .io => ioRead s addr
  | .vram | .externalRam | .echoRam | .oam | .unusable => 0x00#8

/-- What a bus read does to the state: 4 T-cycles, and the diagnostic of an illegal one (20_memory R52, R54, R64). -/
def chargeRead (addr : Word) (s : State) : State :=
  if (regionOf addr).legal then s.tick 4 else raiseIllegalAccess addr .read (s.tick 4)

/-- `cart_write` (20_memory R58). -/
def cartWrite (addr : Word) (v : Byte) (s : State) : State :=
  match s.params.cartWrite with
  | .store => s.setMem (s.mem.set addr.toNat v)
  | .ignore => s

/-- What a bus write does to the state (20_memory R53, R54, R64). -/
def writeByte (addr : Word) (v : Byte) (s : State) : State :=
  match regionOf addr with
  | .cartridge => cartWrite addr v (s.tick 4)
  | .wram | .io | .hram | .ie => (s.tick 4).setMem (s.mem.set addr.toNat v)
  | .vram | .externalRam | .echoRam | .oam | .unusable => raiseIllegalAccess addr .write (s.tick 4)

/-- `MemRead(addr, 1)`, then `k` with the byte read; the step ends at the access where `accessStops`. -/
def readThen (addr : Word) (s : State) (k : Byte → State → Result) : Result :=
  if accessStops s addr then .next (chargeRead addr s) else k (readByte s addr) (chargeRead addr s)

/-- `MemWrite(addr, 1, v)`, then `k`; the step ends at the access where `accessStops`. -/
def writeThen (addr : Word) (v : Byte) (s : State) (k : State → Result) : Result :=
  if accessStops s addr then .next (writeByte addr v s) else k (writeByte addr v s)

/-- `Fetch8()` (00_scope R9). -/
def fetch8Then (s : State) (k : Byte → State → Result) : Result :=
  readThen s.pc s fun v t => k v (t.setPc (t.pc + 1#16))

/-! The stack (45_stack R220, R221). -/

/-- One byte of `Push16`: "SP decreases before writing". -/
def pushByteThen (v : Byte) (s : State) (k : State → Result) : Result :=
  writeThen (s.sp - 1#16) v (s.setSp (s.sp - 1#16)) k

/-- `Push16(v)`: high byte first, at descending addresses (45_stack R220). -/
def push16Then (v : Word) (s : State) (k : State → Result) : Result :=
  pushByteThen (hiByte v) s fun t => pushByteThen (loByte v) t k

/-- One byte of `Pop16`. -/
def popByteThen (s : State) (k : Byte → State → Result) : Result :=
  readThen s.sp s fun v t => k v (t.setSp (t.sp + 1#16))

/-- `Pop16()`: low byte first, at ascending addresses (45_stack R221). -/
def pop16Then (s : State) (k : Word → State → Result) : Result :=
  popByteThen s fun lo t => popByteThen t fun hi u => k (joinBytes hi lo) u

/-! Steps that are no ordinary instruction. -/

/-- The illegal opcode `op`: `raise IllegalOpcode(op, pc0)`, and `halted <- 1` under STRICT_OPCODE (30_encoding R102,
60_exceptions R311). The opcode byte has been fetched, so `pc0` is the PC less one. -/
def illegalOpcode (op : Byte) (s : State) : State :=
  (s.log (.illegalOpcode op (s.pc - 1#16))).setHalted (s.halted || s.params.strictOpcode)

/-- The idle step of the halted state (10_state R30, 30_encoding R99). -/
def idleStep (s : State) : State := s.tick 4

/-- The end of an instruction step: the EI delay (10_state R29, 30_encoding R99). `pend` is `ime_pending` as it was
when the step began. A step that an illegal access ended under STRICT_ACCESS does not come to its end (20_memory
R54; DEDUCED, log entry 7). -/
def finishStep (pend : Bool) (t : State) : State :=
  if pend && t.imePending && !t.fatal then (t.setIme true).setImePending false else t

end Sys2Proof.Machine
end

