-- ==== Sys2Proof/Machine/Alu16.lean ====
section
/-! DEFINITION. 16-bit arithmetic (42_alu16 R190 to R194). -/

namespace Sys2Proof.Machine

/-- `ADD HL,rr`: Z unchanged (42_alu16 R190). -/
def execAddHlRr (rr : Reg16) (s : State) : Result :=
  let w := addHl16 s.hl (s.getReg16 rr)
  .next (internal 1 ((s.setHl w.r).setFlags { z := s.flagZ, n := false, h := w.h, c := w.c }))

/-- `INC rr`: no flag (42_alu16 R191). -/
def execIncRr (rr : Reg16) (s : State) : Result :=
  .next (internal 1 (s.setReg16 rr (s.getReg16 rr + 1#16)))

/-- `DEC rr`: no flag (42_alu16 R192). -/
def execDecRr (rr : Reg16) (s : State) : Result :=
  .next (internal 1 (s.setReg16 rr (s.getReg16 rr - 1#16)))

/-- `ADD SP,e8` (42_alu16 R193). -/
def execAddSpE8 (n : Byte) (s : State) : Result :=
  let w := spAdd s.sp n
  .next (internal 2 ((s.setSp w.r).setFlags { z := false, n := false, h := w.h, c := w.c }))


end Sys2Proof.Machine
end

