-- ==== Sys2Proof/Machine/Alu8.lean ====
section
/-! DEFINITION. 8-bit arithmetic and logic on A (41_alu8 R150 to R176). -/

namespace Sys2Proof.Machine

/-- Write A and the four flags (41_alu8 R152). -/
def writeA (w : AluResult) (s : State) : State := (s.setReg8 .a w.r).setFlags w.fl

/-- `op A,(HL)`: the source byte is read first (41_alu8 R152). -/
def withHl (s : State) (k : Byte → State → State) : Result := readThen s.hl s fun v t => .next (k v t)

/-- `ADD A,r` (41_alu8 R153). -/
def execAddAR (r : Reg8) (s : State) : Result :=
  .next (writeA (add8 s.a (s.getReg8 r) false) s)

/-- `ADD A,(HL)` (41_alu8 R154). -/
def execAddAHl (s : State) : Result :=
  withHl s fun v t => writeA (add8 t.a v false) t

/-- `ADD A,n8` (41_alu8 R155). -/
def execAddAN8 (n : Byte) (s : State) : Result :=
  .next (writeA (add8 s.a n false) s)

/-- `ADC A,r` (41_alu8 R156). -/
def execAdcAR (r : Reg8) (s : State) : Result :=
  .next (writeA (add8 s.a (s.getReg8 r) s.flagC) s)

/-- `ADC A,(HL)` (41_alu8 R157). -/
def execAdcAHl (s : State) : Result :=
  withHl s fun v t => writeA (add8 t.a v t.flagC) t

/-- `ADC A,n8` (41_alu8 R158). -/
def execAdcAN8 (n : Byte) (s : State) : Result :=
  .next (writeA (add8 s.a n s.flagC) s)

/-- `SUB A,r` (41_alu8 R159). -/
def execSubAR (r : Reg8) (s : State) : Result :=
  .next (writeA (sub8 s.a (s.getReg8 r) false) s)

/-- `SUB A,(HL)` (41_alu8 R160). -/
def execSubAHl (s : State) : Result :=
  withHl s fun v t => writeA (sub8 t.a v false) t

/-- `SUB A,n8` (41_alu8 R161). -/
def execSubAN8 (n : Byte) (s : State) : Result :=
  .next (writeA (sub8 s.a n false) s)

/-- `SBC A,r` (41_alu8 R162). -/
def execSbcAR (r : Reg8) (s : State) : Result :=
  .next (writeA (sub8 s.a (s.getReg8 r) s.flagC) s)

/-- `SBC A,(HL)` (41_alu8 R163). -/
def execSbcAHl (s : State) : Result :=
  withHl s fun v t => writeA (sub8 t.a v t.flagC) t

/-- `SBC A,n8` (41_alu8 R164). -/
def execSbcAN8 (n : Byte) (s : State) : Result :=
  .next (writeA (sub8 s.a n s.flagC) s)

/-- `AND A,r` (41_alu8 R165). -/
def execAndAR (r : Reg8) (s : State) : Result :=
  .next (writeA (and8 s.a (s.getReg8 r)) s)

/-- `AND A,(HL)` (41_alu8 R166). -/
def execAndAHl (s : State) : Result :=
  withHl s fun v t => writeA (and8 t.a v) t

/-- `AND A,n8` (41_alu8 R167). -/
def execAndAN8 (n : Byte) (s : State) : Result :=
  .next (writeA (and8 s.a n) s)

/-- `XOR A,r` (41_alu8 R168). -/
def execXorAR (r : Reg8) (s : State) : Result :=
  .next (writeA (xor8 s.a (s.getReg8 r)) s)

/-- `XOR A,(HL)` (41_alu8 R169). -/
def execXorAHl (s : State) : Result :=
  withHl s fun v t => writeA (xor8 t.a v) t

/-- `XOR A,n8` (41_alu8 R170). -/
def execXorAN8 (n : Byte) (s : State) : Result :=
  .next (writeA (xor8 s.a n) s)

/-- `OR A,r` (41_alu8 R171). -/
def execOrAR (r : Reg8) (s : State) : Result :=
  .next (writeA (or8 s.a (s.getReg8 r)) s)

/-- `OR A,(HL)` (41_alu8 R172). -/
def execOrAHl (s : State) : Result :=
  withHl s fun v t => writeA (or8 t.a v) t

/-- `OR A,n8` (41_alu8 R173). -/
def execOrAN8 (n : Byte) (s : State) : Result :=
  .next (writeA (or8 s.a n) s)

/-- `CP A,r`: the flags of SUB, the result discarded (41_alu8 R174). -/
def execCpAR (r : Reg8) (s : State) : Result :=
  .next (s.setFlags (sub8 s.a (s.getReg8 r) false).fl)

/-- `CP A,(HL)` (41_alu8 R175). -/
def execCpAHl (s : State) : Result :=
  withHl s fun v t => t.setFlags (sub8 t.a v false).fl

/-- `CP A,n8` (41_alu8 R176). -/
def execCpAN8 (n : Byte) (s : State) : Result :=
  .next (s.setFlags (sub8 s.a n false).fl)


end Sys2Proof.Machine
end

