-- ==== Sys2Proof/WellFormed.lean ====
section
/-! DEFINITION. The checks an instruction's operands must pass: a bit number is 0..7 (48_cb_prefix R287 to R292)
and an RST vector is `8 * t` for a 3-bit `t` (46_control R247). Every other operand type admits only legal values
(30_encoding R103). -/

namespace Sys2Proof

/-- `b` is a bit number of a byte. -/
def isBitNumber (bit : Nat) : Bool := decide (bit < 8)

/-- `vec` is one of $00, $08, ..., $38. -/
def isRstVector (vec : Byte) : Bool := decide (vec &&& 0xC7#8 = 0#8)

/-- The instruction has an encoding. -/
def Instr.wf : Instr → Bool
  | .bitHl bit | .resHl bit | .setHl bit => isBitNumber bit
  | .bitR bit _ | .resR bit _ | .setR bit _ => isBitNumber bit
  | .rstVec vec => isRstVector vec
  | .rlcHl | .rrcHl | .rlHl | .rrHl | .slaHl | .sraHl | .swapHl | .srlHl => true
  | .rlcR _ | .rrcR _ | .rlR _ | .rrR _ | .slaR _ | .sraR _ | .swapR _ | .srlR _ => true
  | .ldHlN8 _ | .ldABc | .ldADe | .ldBcA | .ldDeA | .ldAA16 _ | .ldA16A _ => true
  | .ldhAA8 _ | .ldhA8A _ | .ldhAC | .ldhCA => true
  | .ldHlIncA | .ldAHlInc | .ldHlDecA | .ldAHlDec | .ldA16Sp _ | .ldSpHl | .ldHlSpE8 _ => true
  | .addAHl | .addAN8 _ | .adcAHl | .adcAN8 _ | .subAHl | .subAN8 _ | .sbcAHl | .sbcAN8 _ => true
  | .andAHl | .andAN8 _ | .xorAHl | .xorAN8 _ | .orAHl | .orAN8 _ | .cpAHl | .cpAN8 _ => true
  | .addSpE8 _ | .incHl | .decHl | .rlca | .rrca | .rla | .rra | .pushAf | .popAf => true
  | .jrE8 _ | .jpA16 _ | .jpHl | .callA16 _ | .ret | .reti => true
  | .nop | .halt | .stop | .di | .ei | .scf | .ccf | .cpl | .prefixCb | .daa => true
  | .illegalD3 | .illegalDB | .illegalDD | .illegalE3 | .illegalE4 | .illegalEB => true
  | .illegalEC | .illegalED | .illegalF4 | .illegalFC | .illegalFD => true
  | .ldRrN16 _ _ | .addHlRr _ | .incRr _ | .decRr _ | .pushRr _ | .popRr _ => true
  | .jrCcE8 _ _ | .jpCcA16 _ _ | .callCcA16 _ _ | .retCc _ => true
  | .ldRN8 _ _ | .ldRHl _ | .ldHlR _ => true
  | .addAR _ | .adcAR _ | .subAR _ | .sbcAR _ | .andAR _ | .xorAR _ | .orAR _ | .cpAR _ => true
  | .incR _ | .decR _ | .ldRR _ _ => true

end Sys2Proof
end

