-- ==== Sys2Proof/Decode.lean ====
section
/-! DEFINITION. Decoding (30_encoding R90 to R104) as the case analysis by fields of R100 and R101, then the encoder
from the encodings of the instruction rules, and the host's table words. -/

namespace Sys2Proof

open Machine

/-- The operand slot table `r8`: `none` is slot 6, `(HL)` (30_encoding R92). -/
def regOfIndex : Nat → Option Reg8
  | 0 => some .b
  | 1 => some .c
  | 2 => some .d
  | 3 => some .e
  | 4 => some .h
  | 5 => some .l
  | 6 => none
  | _ => some .a

/-- The table `rp` (30_encoding R93), indexed by `p = y / 2`. -/
def reg16OfIndex : Nat → Reg16
  | 0 => .bc
  | 1 => .de
  | 2 => .hl
  | _ => .sp

/-- The table `cc` (30_encoding R95). -/
def condOfIndex : Nat → Cond
  | 0 => .nz
  | 1 => .z
  | 2 => .nc
  | _ => .c

/-- `x = 0, z = 0`: NOP, LD (a16),SP, STOP and the relative jumps (30_encoding R100). -/
def decodeX0Z0 (y : Nat) (b1 b2 : Byte) : Instr :=
  match y with
  | 0 => .nop
  | 1 => .ldA16Sp (joinBytes b2 b1)
  | 2 => .stop
  | 3 => .jrE8 b1
  | _ => .jrCcE8 (condOfIndex (y - 4)) b1

/-- `x = 0, z = 2`: the indirect loads; `p` selects (BC), (DE), (HL+), (HL-) and `q` the direction (30_encoding R94). -/
def decodeX0Z2 (y : Nat) : Instr :=
  match y with
  | 0 => .ldBcA
  | 1 => .ldABc
  | 2 => .ldDeA
  | 3 => .ldADe
  | 4 => .ldHlIncA
  | 5 => .ldAHlInc
  | 6 => .ldHlDecA
  | _ => .ldAHlDec

/-- `x = 0, z = 7`: the accumulator and flag operations (30_encoding R100). -/
def decodeX0Z7 (y : Nat) : Instr :=
  match y with
  | 0 => .rlca
  | 1 => .rrca
  | 2 => .rla
  | 3 => .rra
  | 4 => .daa
  | 5 => .cpl
  | 6 => .scf
  | _ => .ccf

/-- Quadrant 0 (30_encoding R100). -/
def decodeX0 (y z : Nat) (b1 b2 : Byte) : Instr :=
  match z with
  | 0 => decodeX0Z0 y b1 b2
  | 1 => if y % 2 = 0 then .ldRrN16 (reg16OfIndex (y / 2)) (joinBytes b2 b1) else .addHlRr (reg16OfIndex (y / 2))
  | 2 => decodeX0Z2 y
  | 3 => if y % 2 = 0 then .incRr (reg16OfIndex (y / 2)) else .decRr (reg16OfIndex (y / 2))
  | 4 => match regOfIndex y with
    | some r => .incR r
    | none => .incHl
  | 5 => match regOfIndex y with
    | some r => .decR r
    | none => .decHl
  | 6 => match regOfIndex y with
    | some r => .ldRN8 r b1
    | none => .ldHlN8 b1
  | _ => decodeX0Z7 y

/-- Quadrant 1: `LD r8[y],r8[z]`, and HALT where both are slot 6 (30_encoding R92, R100). -/
def decodeX1 (y z : Nat) : Instr :=
  match regOfIndex y, regOfIndex z with
  | some r, some r' => .ldRR r r'
  | some r, none => .ldRHl r
  | none, some r' => .ldHlR r'
  | none, none => .halt

/-- Quadrant 2: `alu[y] A,r8[z]` (30_encoding R96). -/
def decodeX2 (y z : Nat) : Instr :=
  match regOfIndex z with
  | some r =>
    match y with
    | 0 => .addAR r
    | 1 => .adcAR r
    | 2 => .subAR r
    | 3 => .sbcAR r
    | 4 => .andAR r
    | 5 => .xorAR r
    | 6 => .orAR r
    | _ => .cpAR r
  | none =>
    match y with
    | 0 => .addAHl
    | 1 => .adcAHl
    | 2 => .subAHl
    | 3 => .sbcAHl
    | 4 => .andAHl
    | 5 => .xorAHl
    | 6 => .orAHl
    | _ => .cpAHl

/-- `x = 3, z = 0` (30_encoding R100). -/
def decodeX3Z0 (y : Nat) (b1 : Byte) : Instr :=
  match y with
  | 4 => .ldhA8A b1
  | 5 => .addSpE8 b1
  | 6 => .ldhAA8 b1
  | 7 => .ldHlSpE8 b1
  | _ => .retCc (condOfIndex y)

/-- `x = 3, z = 1` (30_encoding R94, R100). -/
def decodeX3Z1 (y : Nat) : Instr :=
  match y with
  | 0 => .popRr .bc
  | 1 => .ret
  | 2 => .popRr .de
  | 3 => .reti
  | 4 => .popRr .hl
  | 5 => .jpHl
  | 6 => .popAf
  | _ => .ldSpHl

/-- `x = 3, z = 2` (30_encoding R100). -/
def decodeX3Z2 (y : Nat) (b1 b2 : Byte) : Instr :=
  match y with
  | 4 => .ldhCA
  | 5 => .ldA16A (joinBytes b2 b1)
  | 6 => .ldhAC
  | 7 => .ldAA16 (joinBytes b2 b1)
  | _ => .jpCcA16 (condOfIndex y) (joinBytes b2 b1)

/-- `x = 3, z = 3` (30_encoding R100, R102). -/
def decodeX3Z3 (y : Nat) (b1 b2 : Byte) : Instr :=
  match y with
  | 0 => .jpA16 (joinBytes b2 b1)
  | 1 => .prefixCb
  | 2 => .illegalD3
  | 3 => .illegalDB
  | 4 => .illegalE3
  | 5 => .illegalEB
  | 6 => .di
  | _ => .ei

/-- `x = 3, z = 4` (30_encoding R100, R102). -/
def decodeX3Z4 (y : Nat) (b1 b2 : Byte) : Instr :=
  match y with
  | 4 => .illegalE4
  | 5 => .illegalEC
  | 6 => .illegalF4
  | 7 => .illegalFC
  | _ => .callCcA16 (condOfIndex y) (joinBytes b2 b1)

/-- `x = 3, z = 5` (30_encoding R94, R100, R102). -/
def decodeX3Z5 (y : Nat) (b1 b2 : Byte) : Instr :=
  match y with
  | 0 => .pushRr .bc
  | 1 => .callA16 (joinBytes b2 b1)
  | 2 => .pushRr .de
  | 3 => .illegalDD
  | 4 => .pushRr .hl
  | 5 => .illegalED
  | 6 => .pushAf
  | _ => .illegalFD

/-- `x = 3, z = 6`: `alu[y] A,n8` (30_encoding R96). -/
def decodeX3Z6 (y : Nat) (b1 : Byte) : Instr :=
  match y with
  | 0 => .addAN8 b1
  | 1 => .adcAN8 b1
  | 2 => .subAN8 b1
  | 3 => .sbcAN8 b1
  | 4 => .andAN8 b1
  | 5 => .xorAN8 b1
  | 6 => .orAN8 b1
  | _ => .cpAN8 b1

/-- Quadrant 3 (30_encoding R100); `z = 7` is `RST y*8` (R98). -/
def decodeX3 (y z : Nat) (b1 b2 : Byte) : Instr :=
  match z with
  | 0 => decodeX3Z0 y b1
  | 1 => decodeX3Z1 y
  | 2 => decodeX3Z2 y b1 b2
  | 3 => decodeX3Z3 y b1 b2
  | 4 => decodeX3Z4 y b1 b2
  | 5 => decodeX3Z5 y b1 b2
  | 6 => decodeX3Z6 y b1
  | _ => .rstVec (BitVec.ofNat 8 (y * 8))

/-- The primary table (30_encoding R100), read with the operand bytes `b1`, `b2` that the address mode fetched
(R97, R98): total, every one of the 256 bytes has its entry. -/
def decodePrimary (op b1 b2 : Byte) : Instr :=
  match fieldX op with
  | 0 => decodeX0 (fieldY op) (fieldZ op) b1 b2
  | 1 => decodeX1 (fieldY op) (fieldZ op)
  | 2 => decodeX2 (fieldY op) (fieldZ op)
  | _ => decodeX3 (fieldY op) (fieldZ op) b1 b2

/-- Rows 0x00 to 0x3F of the CB table: `rot[y] r8[r]` (30_encoding R96, R101). -/
def decodeCbRot (y : Nat) : Option Reg8 → Instr
  | some r =>
    match y with
    | 0 => .rlcR r
    | 1 => .rrcR r
    | 2 => .rlR r
    | 3 => .rrR r
    | 4 => .slaR r
    | 5 => .sraR r
    | 6 => .swapR r
    | _ => .srlR r
  | none =>
    match y with
    | 0 => .rlcHl
    | 1 => .rrcHl
    | 2 => .rlHl
    | 3 => .rrHl
    | 4 => .slaHl
    | 5 => .sraHl
    | 6 => .swapHl
    | _ => .srlHl

/-- The CB subtable (30_encoding R101): all 256 sub-opcodes are defined. -/
def decodeCb (sub : Byte) : Instr :=
  match fieldX sub, regOfIndex (fieldZ sub) with
  | 0, slot => decodeCbRot (fieldY sub) slot
  | 1, some r => .bitR (fieldY sub) r
  | 1, none => .bitHl (fieldY sub)
  | 2, some r => .resR (fieldY sub) r
  | 2, none => .resHl (fieldY sub)
  | _, some r => .setR (fieldY sub) r
  | _, none => .setHl (fieldY sub)

/-- The prefix byte (30_encoding R101). -/
def prefixByte : Byte := 0xCB#8

/-- The opcodes of length 3 (30_encoding R104). -/
def opcodesOfLength3 : List Byte :=
  [0x01#8, 0x11#8, 0x21#8, 0x31#8, 0x08#8, 0xC2#8, 0xC3#8, 0xC4#8, 0xCA#8, 0xCC#8, 0xCD#8, 0xD2#8, 0xD4#8,
    0xDA#8, 0xDC#8, 0xEA#8, 0xFA#8]

/-- The opcodes of length 2 other than the prefix (30_encoding R104). -/
def opcodesOfLength2 : List Byte :=
  [0x06#8, 0x0E#8, 0x16#8, 0x1E#8, 0x26#8, 0x2E#8, 0x36#8, 0x3E#8, 0xC6#8, 0xCE#8, 0xD6#8, 0xDE#8, 0xE6#8,
    0xEE#8, 0xF6#8, 0xFE#8, 0x18#8, 0x20#8, 0x28#8, 0x30#8, 0x38#8, 0xE0#8, 0xE8#8, 0xF0#8, 0xF8#8]

/-- How many operand bytes the address mode of a primary opcode fetches (30_encoding R97, R104). The prefix has
address mode NONE: its sub-opcode is fetched by its operation. -/
def operandCount (op : Byte) : Nat :=
  if opcodesOfLength3.contains op then 2 else if opcodesOfLength2.contains op then 1 else 0

/-- What decoding a list of bytes answers: an instruction and the bytes after it, or why there is none. -/
inductive Decoded
  | instr (i : Instr) (rest : List Byte)
  /-- No byte at all. -/
  | noBytes
  /-- The list ends inside the instruction that `op` begins. -/
  | truncated (op : Byte)
deriving DecidableEq, Repr

/-- Decoding (30_encoding R90, R99, R101, R107). The byte 0xCB with a byte after it selects from the CB table; alone
it is the primary table's own row PREFIX CB (R107; DESIGN CHOICE, log entry 8). -/
def decode : List Byte → Decoded
  | [] => .noBytes
  | op :: rest =>
    if op = prefixByte then
      match rest with
      | [] => .instr .prefixCb []
      | sub :: tail => .instr (decodeCb sub) tail
    else
      match operandCount op, rest with
      | 0, tail => .instr (decodePrimary op 0 0) tail
      | 1, b1 :: tail => .instr (decodePrimary op b1 0) tail
      | 2, b1 :: b2 :: tail => .instr (decodePrimary op b1 b2) tail
      | _, _ => .truncated op

/-! The encoder. -/

/-- Index of a register in `r8` (30_encoding R92). -/
def Reg8.index : Reg8 → Nat
  | .b => 0
  | .c => 1
  | .d => 2
  | .e => 3
  | .h => 4
  | .l => 5
  | .a => 7

/-- Index of a pair in `rp` (30_encoding R93). -/
def Reg16.index : Reg16 → Nat
  | .bc => 0
  | .de => 1
  | .hl => 2
  | .sp => 3

/-- Index of a pair in `rp2` (30_encoding R94). -/
def StackPair.index : StackPair → Nat
  | .bc => 0
  | .de => 1
  | .hl => 2

/-- Index of a condition in `cc` (30_encoding R95). -/
def Cond.index : Cond → Nat
  | .nz => 0
  | .z => 1
  | .nc => 2
  | .c => 3

/-- An opcode byte with a field added at a place: `base + place * field`. -/
def opcodeWith (base place field : Nat) : Byte := BitVec.ofNat 8 (base + place * field)

/-- An opcode byte followed by a 16-bit operand, low byte first (30_encoding R90, R98). -/
def withWord (op : Byte) (v : Word) : List Byte := [op, loByte v, hiByte v]

/-- The bytes of an instruction, written from the Encoding line of its rule. -/
def encode : Instr → List Byte
  | .rlcHl => [0xCB#8, 0x06#8]
  | .rrcHl => [0xCB#8, 0x0E#8]
  | .rlHl => [0xCB#8, 0x16#8]
  | .rrHl => [0xCB#8, 0x1E#8]
  | .slaHl => [0xCB#8, 0x26#8]
  | .sraHl => [0xCB#8, 0x2E#8]
  | .swapHl => [0xCB#8, 0x36#8]
  | .srlHl => [0xCB#8, 0x3E#8]
  | .rlcR r => [0xCB#8, opcodeWith 0x00 1 r.index]
  | .rrcR r => [0xCB#8, opcodeWith 0x08 1 r.index]
  | .rlR r => [0xCB#8, opcodeWith 0x10 1 r.index]
  | .rrR r => [0xCB#8, opcodeWith 0x18 1 r.index]
  | .slaR r => [0xCB#8, opcodeWith 0x20 1 r.index]
  | .sraR r => [0xCB#8, opcodeWith 0x28 1 r.index]
  | .swapR r => [0xCB#8, opcodeWith 0x30 1 r.index]
  | .srlR r => [0xCB#8, opcodeWith 0x38 1 r.index]
  | .bitHl bit => [0xCB#8, opcodeWith 0x46 8 bit]
  | .resHl bit => [0xCB#8, opcodeWith 0x86 8 bit]
  | .setHl bit => [0xCB#8, opcodeWith 0xC6 8 bit]
  | .bitR bit r => [0xCB#8, opcodeWith (0x40 + r.index) 8 bit]
  | .resR bit r => [0xCB#8, opcodeWith (0x80 + r.index) 8 bit]
  | .setR bit r => [0xCB#8, opcodeWith (0xC0 + r.index) 8 bit]
  | .ldHlN8 n => [0x36#8, n]
  | .ldABc => [0x0A#8]
  | .ldADe => [0x1A#8]
  | .ldBcA => [0x02#8]
  | .ldDeA => [0x12#8]
  | .ldAA16 addr => withWord 0xFA#8 addr
  | .ldA16A addr => withWord 0xEA#8 addr
  | .ldhAA8 n => [0xF0#8, n]
  | .ldhA8A n => [0xE0#8, n]
  | .ldhAC => [0xF2#8]
  | .ldhCA => [0xE2#8]
  | .ldHlIncA => [0x22#8]
  | .ldAHlInc => [0x2A#8]
  | .ldHlDecA => [0x32#8]
  | .ldAHlDec => [0x3A#8]
  | .ldA16Sp addr => withWord 0x08#8 addr
  | .ldSpHl => [0xF9#8]
  | .ldHlSpE8 n => [0xF8#8, n]
  | .addAHl => [0x86#8]
  | .addAN8 n => [0xC6#8, n]
  | .adcAHl => [0x8E#8]
  | .adcAN8 n => [0xCE#8, n]
  | .subAHl => [0x96#8]
  | .subAN8 n => [0xD6#8, n]
  | .sbcAHl => [0x9E#8]
  | .sbcAN8 n => [0xDE#8, n]
  | .andAHl => [0xA6#8]
  | .andAN8 n => [0xE6#8, n]
  | .xorAHl => [0xAE#8]
  | .xorAN8 n => [0xEE#8, n]
  | .orAHl => [0xB6#8]
  | .orAN8 n => [0xF6#8, n]
  | .cpAHl => [0xBE#8]
  | .cpAN8 n => [0xFE#8, n]
  | .addSpE8 n => [0xE8#8, n]
  | .incHl => [0x34#8]
  | .decHl => [0x35#8]
  | .rlca => [0x07#8]
  | .rrca => [0x0F#8]
  | .rla => [0x17#8]
  | .rra => [0x1F#8]
  | .pushAf => [0xF5#8]
  | .popAf => [0xF1#8]
  | .jrE8 n => [0x18#8, n]
  | .jpA16 addr => withWord 0xC3#8 addr
  | .jpHl => [0xE9#8]
  | .callA16 addr => withWord 0xCD#8 addr
  | .ret => [0xC9#8]
  | .reti => [0xD9#8]
  | .nop => [0x00#8]
  | .halt => [0x76#8]
  | .stop => [0x10#8]
  | .di => [0xF3#8]
  | .ei => [0xFB#8]
  | .scf => [0x37#8]
  | .ccf => [0x3F#8]
  | .cpl => [0x2F#8]
  | .prefixCb => [0xCB#8]
  | .daa => [0x27#8]
  | .illegalD3 => [0xD3#8]
  | .illegalDB => [0xDB#8]
  | .illegalDD => [0xDD#8]
  | .illegalE3 => [0xE3#8]
  | .illegalE4 => [0xE4#8]
  | .illegalEB => [0xEB#8]
  | .illegalEC => [0xEC#8]
  | .illegalED => [0xED#8]
  | .illegalF4 => [0xF4#8]
  | .illegalFC => [0xFC#8]
  | .illegalFD => [0xFD#8]
  | .ldRrN16 rr n => withWord (opcodeWith 0x01 16 rr.index) n
  | .addHlRr rr => [opcodeWith 0x09 16 rr.index]
  | .incRr rr => [opcodeWith 0x03 16 rr.index]
  | .decRr rr => [opcodeWith 0x0B 16 rr.index]
  | .pushRr rr => [opcodeWith 0xC5 16 rr.index]
  | .popRr rr => [opcodeWith 0xC1 16 rr.index]
  | .jrCcE8 cc n => [opcodeWith 0x20 8 cc.index, n]
  | .jpCcA16 cc addr => withWord (opcodeWith 0xC2 8 cc.index) addr
  | .callCcA16 cc addr => withWord (opcodeWith 0xC4 8 cc.index) addr
  | .retCc cc => [opcodeWith 0xC0 8 cc.index]
  | .ldRN8 r n => [opcodeWith 0x06 8 r.index, n]
  | .ldRHl r => [opcodeWith 0x46 8 r.index]
  | .ldHlR r => [opcodeWith 0x70 1 r.index]
  | .addAR r => [opcodeWith 0x80 1 r.index]
  | .adcAR r => [opcodeWith 0x88 1 r.index]
  | .subAR r => [opcodeWith 0x90 1 r.index]
  | .sbcAR r => [opcodeWith 0x98 1 r.index]
  | .andAR r => [opcodeWith 0xA0 1 r.index]
  | .xorAR r => [opcodeWith 0xA8 1 r.index]
  | .orAR r => [opcodeWith 0xB0 1 r.index]
  | .cpAR r => [opcodeWith 0xB8 1 r.index]
  | .incR r => [opcodeWith 0x04 8 r.index]
  | .decR r => [opcodeWith 0x05 8 r.index]
  | .rstVec vec => [0xC7#8 ||| vec]
  | .ldRR r r' => [opcodeWith (0x40 + r'.index) 8 r.index]

/-! The host's table words. -/

/-- The bytes, first byte first, of an instruction whose bits are `w` in the numbering of spec/opcode_table.json.
DESIGN CHOICE, log entry 9: a CB row is numbered with the prefix in bits 15..8 (`byte0 * 256 + byte1`, 30_encoding
R107); any other word has byte 0 in bits 7..0 and later bytes above it. -/
def tableWordBytes (nbits w : Nat) : List Byte :=
  if nbits = 16 ∧ w / 256 % 256 = 0xCB then [prefixByte, BitVec.ofNat 8 w]
  else (List.range (nbits / 8)).map fun k => BitVec.ofNat 8 (w / 256 ^ k)

/-- The zero operand bytes an instruction needs beyond the ones given: as many as its first byte's primary row has
(for the row PREFIX CB, whose length in the table is 1, none). -/
def padOperands (bytes : List Byte) : List Byte :=
  match bytes with
  | [] => []
  | op :: rest => op :: (rest ++ List.replicate (operandCount op - rest.length) 0#8)

/-- The instruction the decoder reads from a table word. -/
def decodeTableWord (nbits w : Nat) : Option Instr :=
  match decode (padOperands (tableWordBytes nbits w)) with
  | .instr i _ => some i
  | .noBytes => none
  | .truncated _ => none

end Sys2Proof
end

