-- ==== Sys2Proof/Machine/Cb.lean ====
section
/-! DEFINITION. The CB sub-decoder (48_cb_prefix R270 to R292) and the prefix itself (47_misc R258). -/

namespace Sys2Proof.Machine

/-- A rotate, shift or swap of a register (48_cb_prefix R270). -/
def shiftReg (r : Reg8) (w : ShiftResult) (s : State) : Result := .next ((s.setReg8 r w.r).setFlags w.cbFlags)

/-- A rotate, shift or swap of the byte at HL: read, compute, write back (48_cb_prefix R270). -/
def shiftHl (f : Byte → Bool → ShiftResult) (s : State) : Result :=
  readThen s.hl s fun v t =>
    writeThen t.hl (f v t.flagC).r t fun u => .next (u.setFlags (f v t.flagC).cbFlags)

/-- RES and SET on the byte at HL: always written back, no flag (48_cb_prefix R270, R290, R292). -/
def rewriteHl (f : Byte → Byte) (s : State) : Result := readThen s.hl s fun v t => writeThen t.hl (f v) t .next

/-- `RLC r` (48_cb_prefix R271). -/
def execRlcR (r : Reg8) (s : State) : Result :=
  shiftReg r (rlc8 (s.getReg8 r)) s

/-- `RLC (HL)` (48_cb_prefix R272). -/
def execRlcHl (s : State) : Result :=
  shiftHl (fun v _ => rlc8 v) s

/-- `RRC r` (48_cb_prefix R273). -/
def execRrcR (r : Reg8) (s : State) : Result :=
  shiftReg r (rrc8 (s.getReg8 r)) s

/-- `RRC (HL)` (48_cb_prefix R274). -/
def execRrcHl (s : State) : Result :=
  shiftHl (fun v _ => rrc8 v) s

/-- `RL r` (48_cb_prefix R275). -/
def execRlR (r : Reg8) (s : State) : Result :=
  shiftReg r (rl8 (s.getReg8 r) s.flagC) s

/-- `RL (HL)` (48_cb_prefix R276). -/
def execRlHl (s : State) : Result :=
  shiftHl rl8 s

/-- `RR r` (48_cb_prefix R277). -/
def execRrR (r : Reg8) (s : State) : Result :=
  shiftReg r (rr8 (s.getReg8 r) s.flagC) s

/-- `RR (HL)` (48_cb_prefix R278). -/
def execRrHl (s : State) : Result :=
  shiftHl rr8 s

/-- `SLA r` (48_cb_prefix R279). -/
def execSlaR (r : Reg8) (s : State) : Result :=
  shiftReg r (sla8 (s.getReg8 r)) s

/-- `SLA (HL)` (48_cb_prefix R280). -/
def execSlaHl (s : State) : Result :=
  shiftHl (fun v _ => sla8 v) s

/-- `SRA r` (48_cb_prefix R281). -/
def execSraR (r : Reg8) (s : State) : Result :=
  shiftReg r (sra8 (s.getReg8 r)) s

/-- `SRA (HL)` (48_cb_prefix R282). -/
def execSraHl (s : State) : Result :=
  shiftHl (fun v _ => sra8 v) s

/-- `SWAP r` (48_cb_prefix R283). -/
def execSwapR (r : Reg8) (s : State) : Result :=
  shiftReg r (swap8 (s.getReg8 r)) s

/-- `SWAP (HL)` (48_cb_prefix R284). -/
def execSwapHl (s : State) : Result :=
  shiftHl (fun v _ => swap8 v) s

/-- `SRL r` (48_cb_prefix R285). -/
def execSrlR (r : Reg8) (s : State) : Result :=
  shiftReg r (srl8 (s.getReg8 r)) s

/-- `SRL (HL)` (48_cb_prefix R286). -/
def execSrlHl (s : State) : Result :=
  shiftHl (fun v _ => srl8 v) s

/-- `BIT b,r` (48_cb_prefix R287). -/
def execBitR (bit : Nat) (r : Reg8) (s : State) : Result :=
  .next (s.setFlags (bitFlags bit (s.getReg8 r) s.flagC))

/-- `BIT b,(HL)`: reads only (48_cb_prefix R288). -/
def execBitHl (bit : Nat) (s : State) : Result :=
  readThen s.hl s fun v t => .next (t.setFlags (bitFlags bit v t.flagC))

/-- `RES b,r` (48_cb_prefix R289). -/
def execResR (bit : Nat) (r : Reg8) (s : State) : Result :=
  .next (s.setReg8 r (clearBit bit (s.getReg8 r)))

/-- `RES b,(HL)` (48_cb_prefix R290). -/
def execResHl (bit : Nat) (s : State) : Result :=
  rewriteHl (clearBit bit) s

/-- `SET b,r` (48_cb_prefix R291). -/
def execSetR (bit : Nat) (r : Reg8) (s : State) : Result :=
  .next (s.setReg8 r (setBit bit (s.getReg8 r)))

/-- `SET b,(HL)` (48_cb_prefix R292). -/
def execSetHl (bit : Nat) (s : State) : Result :=
  rewriteHl (setBit bit) s

/-- Rows 0x00 to 0x3F of the CB table (30_encoding R96, R101). -/
def runCbRot (y : Nat) (slot : Option Reg8) (s : State) : Result :=
  match slot with
  | some r =>
    match y with
    | 0 => execRlcR r s
    | 1 => execRrcR r s
    | 2 => execRlR r s
    | 3 => execRrR r s
    | 4 => execSlaR r s
    | 5 => execSraR r s
    | 6 => execSwapR r s
    | _ => execSrlR r s
  | none =>
    match y with
    | 0 => execRlcHl s
    | 1 => execRrcHl s
    | 2 => execRlHl s
    | 3 => execRrHl s
    | 4 => execSlaHl s
    | 5 => execSraHl s
    | 6 => execSwapHl s
    | _ => execSrlHl s

/-- The operation the CB subtable gives for a sub-opcode (30_encoding R101). -/
def runCb (sub : Byte) (s : State) : Result :=
  match fieldX sub, regOfIndex (fieldZ sub) with
  | 0, slot => runCbRot (fieldY sub) slot s
  | 1, some r => execBitR (fieldY sub) r s
  | 1, none => execBitHl (fieldY sub) s
  | 2, some r => execResR (fieldY sub) r s
  | 2, none => execResHl (fieldY sub) s
  | _, some r => execSetR (fieldY sub) r s
  | _, none => execSetHl (fieldY sub) s

/-- `PREFIX CB`: `sub <- Fetch8()`, then the operation the subtable gives for `sub` (47_misc R258, 30_encoding R101). -/
def execPrefixCb (s : State) : Result := fetch8Then s fun sub t => runCb sub t


end Sys2Proof.Machine
end

