-- ==== Sys2Proof/Machine/Control.lean ====
section
/-! DEFINITION. Control transfer (46_control R230 to R247). -/

namespace Sys2Proof.Machine

/-- The relative jump: `PC <- u16(PC + sext_16(b)); Internal(1)` (46_control R231). -/
def jumpRelative (n : Byte) (s : State) : State := internal 1 (s.setPc (s.pc + sext16 n))

/-- The absolute jump with its internal cycle (46_control R233). -/
def jumpAbsolute (addr : Word) (s : State) : State := internal 1 (s.setPc addr)

/-- `Internal(1); Push16(PC); PC <- addr` (46_control R236, R247). -/
def callTo (addr : Word) (s : State) : Result := push16Then s.pc (internal 1 s) fun t => .next (t.setPc addr)

/-- `PC <- Pop16(); Internal(1)`, then `k` on the state (46_control R238, R246). -/
def returnWith (k : State → State) (s : State) : Result := pop16Then s fun v t => .next (internal 1 (k (t.setPc v)))

/-- `JR e8` (46_control R231). -/
def execJrE8 (n : Byte) (s : State) : Result :=
  .next (jumpRelative n s)

/-- `JR cc,e8` (46_control R232). -/
def execJrCcE8 (cc : Cond) (n : Byte) (s : State) : Result :=
  if s.cond cc then .next (jumpRelative n s) else .next s

/-- `JP a16` (46_control R233). -/
def execJpA16 (addr : Word) (s : State) : Result :=
  .next (jumpAbsolute addr s)

/-- `JP cc,a16` (46_control R234). -/
def execJpCcA16 (cc : Cond) (addr : Word) (s : State) : Result :=
  if s.cond cc then .next (jumpAbsolute addr s) else .next s

/-- `JP HL`: no internal cycle, no memory read (46_control R235). -/
def execJpHl (s : State) : Result :=
  .next (s.setPc s.hl)

/-- `CALL a16` (46_control R236). -/
def execCallA16 (addr : Word) (s : State) : Result :=
  callTo addr s

/-- `CALL cc,a16` (46_control R237). -/
def execCallCcA16 (cc : Cond) (addr : Word) (s : State) : Result :=
  if s.cond cc then callTo addr s else .next s

/-- `RET` (46_control R238). -/
def execRet (s : State) : Result :=
  returnWith (fun t => t) s

/-- `RET cc`: one internal cycle before the condition is looked at (46_control R239). -/
def execRetCc (cc : Cond) (s : State) : Result :=
  if s.cond cc then returnWith (fun t => t) (internal 1 s) else .next (internal 1 s)

/-- `RETI`: RET and IME <- 1 at once (46_control R246). -/
def execReti (s : State) : Result :=
  returnWith (fun t => t.setIme true) s

/-- `RST vec` (46_control R247). -/
def execRstVec (vec : Byte) (s : State) : Result :=
  callTo (vec.zeroExtend 16) s


end Sys2Proof.Machine
end

