-- ==== Sys2Proof/Machine/Illegal.lean ====
section
/-! DEFINITION. The eleven illegal opcode bytes (30_encoding R102, 60_exceptions R311). -/

namespace Sys2Proof.Machine

/-- The illegal opcode 0xD3 (30_encoding R102). -/
def execIllegalD3 (s : State) : Result :=
  .next (illegalOpcode 0xD3#8 s)

/-- The illegal opcode 0xDB (30_encoding R102). -/
def execIllegalDB (s : State) : Result :=
  .next (illegalOpcode 0xDB#8 s)

/-- The illegal opcode 0xDD (30_encoding R102). -/
def execIllegalDD (s : State) : Result :=
  .next (illegalOpcode 0xDD#8 s)

/-- The illegal opcode 0xE3 (30_encoding R102). -/
def execIllegalE3 (s : State) : Result :=
  .next (illegalOpcode 0xE3#8 s)

/-- The illegal opcode 0xE4 (30_encoding R102). -/
def execIllegalE4 (s : State) : Result :=
  .next (illegalOpcode 0xE4#8 s)

/-- The illegal opcode 0xEB (30_encoding R102). -/
def execIllegalEB (s : State) : Result :=
  .next (illegalOpcode 0xEB#8 s)

/-- The illegal opcode 0xEC (30_encoding R102). -/
def execIllegalEC (s : State) : Result :=
  .next (illegalOpcode 0xEC#8 s)

/-- The illegal opcode 0xED (30_encoding R102). -/
def execIllegalED (s : State) : Result :=
  .next (illegalOpcode 0xED#8 s)

/-- The illegal opcode 0xF4 (30_encoding R102). -/
def execIllegalF4 (s : State) : Result :=
  .next (illegalOpcode 0xF4#8 s)

/-- The illegal opcode 0xFC (30_encoding R102). -/
def execIllegalFC (s : State) : Result :=
  .next (illegalOpcode 0xFC#8 s)

/-- The illegal opcode 0xFD (30_encoding R102). -/
def execIllegalFD (s : State) : Result :=
  .next (illegalOpcode 0xFD#8 s)


end Sys2Proof.Machine
end

