-- ==== Sys2Proof/Machine/IncDec8.lean ====
section
/-! DEFINITION. 8-bit increment and decrement (43_incdec8 R200 to R203). -/

namespace Sys2Proof.Machine

/-- Read-modify-write of the byte at HL: one read, then one write of the same address (20_memory R62, 48_cb_prefix
R270), then the flags the new byte comes with. -/
def modifyHl (f : Byte → State → AluResult) (s : State) : Result :=
  readThen s.hl s fun v t => writeThen t.hl (f v t).r t fun u => .next (u.setFlags (f v t).fl)

/-- `INC r` (43_incdec8 R200). -/
def execIncR (r : Reg8) (s : State) : Result :=
  let w := inc8 (s.getReg8 r) s.flagC
  .next ((s.setReg8 r w.r).setFlags w.fl)

/-- `INC (HL)` (43_incdec8 R201). -/
def execIncHl (s : State) : Result :=
  modifyHl (fun v t => inc8 v t.flagC) s

/-- `DEC r` (43_incdec8 R202). -/
def execDecR (r : Reg8) (s : State) : Result :=
  let w := dec8 (s.getReg8 r) s.flagC
  .next ((s.setReg8 r w.r).setFlags w.fl)

/-- `DEC (HL)` (43_incdec8 R203). -/
def execDecHl (s : State) : Result :=
  modifyHl (fun v t => dec8 v t.flagC) s


end Sys2Proof.Machine
end

