-- ==== Sys2Proof/Machine/Load.lean ====
section
/-! DEFINITION. Loads (40_load R120 to R142). -/

namespace Sys2Proof.Machine

/-- Load a register from the byte at `addr` (40_load R122, R125, R126, R129, R131, R133). -/
def loadReg8 (r : Reg8) (addr : Word) (s : State) : Result :=
  readThen addr s fun v t => .next (t.setReg8 r v)

/-- Store `v` at `addr` (40_load R123, R124, R127, R128, R130, R132, R134). -/
def storeByte (addr : Word) (v : Byte) (s : State) : Result := writeThen addr v s .next

/-- `LD r,r'` (40_load R120). -/
def execLdRR (r r' : Reg8) (s : State) : Result :=
  .next (s.setReg8 r (s.getReg8 r'))

/-- `LD r,n8` (40_load R121). -/
def execLdRN8 (r : Reg8) (n : Byte) (s : State) : Result :=
  .next (s.setReg8 r n)

/-- `LD r,(HL)` (40_load R122). -/
def execLdRHl (r : Reg8) (s : State) : Result :=
  loadReg8 r s.hl s

/-- `LD (HL),r` (40_load R123). -/
def execLdHlR (r : Reg8) (s : State) : Result :=
  storeByte s.hl (s.getReg8 r) s

/-- `LD (HL),n8` (40_load R124). -/
def execLdHlN8 (n : Byte) (s : State) : Result :=
  storeByte s.hl n s

/-- `LD A,(BC)` (40_load R125). -/
def execLdABc (s : State) : Result :=
  loadReg8 .a s.bc s

/-- `LD A,(DE)` (40_load R126). -/
def execLdADe (s : State) : Result :=
  loadReg8 .a s.de s

/-- `LD (BC),A` (40_load R127). -/
def execLdBcA (s : State) : Result :=
  storeByte s.bc s.a s

/-- `LD (DE),A` (40_load R128). -/
def execLdDeA (s : State) : Result :=
  storeByte s.de s.a s

/-- `LD A,(a16)` (40_load R129). -/
def execLdAA16 (addr : Word) (s : State) : Result :=
  loadReg8 .a addr s

/-- `LD (a16),A` (40_load R130). -/
def execLdA16A (addr : Word) (s : State) : Result :=
  storeByte addr s.a s

/-- `LDH A,(a8)` (40_load R131). -/
def execLdhAA8 (n : Byte) (s : State) : Result :=
  loadReg8 .a (highPage n) s

/-- `LDH (a8),A` (40_load R132). -/
def execLdhA8A (n : Byte) (s : State) : Result :=
  storeByte (highPage n) s.a s

/-- `LDH A,(C)` (40_load R133). -/
def execLdhAC (s : State) : Result :=
  loadReg8 .a (highPage s.c) s

/-- `LDH (C),A` (40_load R134). -/
def execLdhCA (s : State) : Result :=
  storeByte (highPage s.c) s.a s

/-- `LD (HL+),A` (40_load R135): the address is HL before the increment. -/
def execLdHlIncA (s : State) : Result :=
  writeThen s.hl s.a s fun t => .next (t.setHl (t.hl + 1#16))

/-- `LD A,(HL+)` (40_load R136). -/
def execLdAHlInc (s : State) : Result :=
  readThen s.hl s fun v t => .next ((t.setReg8 .a v).setHl (t.hl + 1#16))

/-- `LD (HL-),A` (40_load R137). -/
def execLdHlDecA (s : State) : Result :=
  writeThen s.hl s.a s fun t => .next (t.setHl (t.hl - 1#16))

/-- `LD A,(HL-)` (40_load R138). -/
def execLdAHlDec (s : State) : Result :=
  readThen s.hl s fun v t => .next ((t.setReg8 .a v).setHl (t.hl - 1#16))

/-- `LD rr,n16` (40_load R139). -/
def execLdRrN16 (rr : Reg16) (n : Word) (s : State) : Result :=
  .next (s.setReg16 rr n)

/-- `LD (a16),SP`: low byte first (40_load R140). -/
def execLdA16Sp (addr : Word) (s : State) : Result :=
  writeThen addr (loByte s.sp) s fun t => writeThen (addr + 1#16) (hiByte t.sp) t .next

/-- `LD SP,HL` (40_load R141). -/
def execLdSpHl (s : State) : Result :=
  .next (internal 1 (s.setSp s.hl))

/-- `LD HL,SP+e8` (40_load R142). -/
def execLdHlSpE8 (n : Byte) (s : State) : Result :=
  let w := spAdd s.sp n
  .next (internal 1 ((s.setHl w.r).setFlags { z := false, n := false, h := w.h, c := w.c }))


end Sys2Proof.Machine
end

