-- ==== Sys2Proof/Machine/Misc.lean ====
section
/-! DEFINITION. Miscellaneous instructions (47_misc R250 to R259); the prefix is in Cb.lean. -/

namespace Sys2Proof.Machine

/-- `NOP` (47_misc R250). -/
def execNop (s : State) : Result :=
  .next s

/-- `HALT` (47_misc R251). -/
def execHalt (s : State) : Result :=
  .next (s.setHalted true)

/-- `STOP`: one byte, a latch that gates nothing (47_misc R252). -/
def execStop (s : State) : Result :=
  .next (s.setStopped true)

/-- `DI`: at once, and it cancels a queued EI (47_misc R253). -/
def execDi (s : State) : Result :=
  .next ((s.setIme false).setImePending false)

/-- `EI`: queues the setting of IME (47_misc R254); `finishStep` carries it out. -/
def execEi (s : State) : Result :=
  .next (s.setImePending true)

/-- `SCF` (47_misc R255). -/
def execScf (s : State) : Result :=
  .next (s.setFlags { z := s.flagZ, n := false, h := false, c := true })

/-- `CCF` (47_misc R256). -/
def execCcf (s : State) : Result :=
  .next (s.setFlags { z := s.flagZ, n := false, h := false, c := !s.flagC })

/-- `CPL` (47_misc R257). -/
def execCpl (s : State) : Result :=
  .next ((s.setReg8 .a (s.a ^^^ 0xFF#8)).setFlags { z := s.flagZ, n := true, h := true, c := s.flagC })

/-- `DAA` (47_misc R259). -/
def execDaa (s : State) : Result :=
  let w := daa8 s.a s.flagN s.flagH s.flagC
  .next ((s.setReg8 .a w.r).setFlags w.fl)


end Sys2Proof.Machine
end

