-- ==== Sys2Proof/Machine/RotateA.lean ====
section
/-! DEFINITION. Rotates on A (44_rotate_a R210 to R213). -/

namespace Sys2Proof.Machine

/-- Rotate A: Z forced to 0 (44_rotate_a R210). -/
def rotateA (w : ShiftResult) (s : State) : Result := .next ((s.setReg8 .a w.r).setFlags w.aFlags)

/-- `RLCA` (44_rotate_a R210). -/
def execRlca (s : State) : Result :=
  rotateA (rlc8 s.a) s

/-- `RRCA` (44_rotate_a R211). -/
def execRrca (s : State) : Result :=
  rotateA (rrc8 s.a) s

/-- `RLA` (44_rotate_a R212). -/
def execRla (s : State) : Result :=
  rotateA (rl8 s.a s.flagC) s

/-- `RRA` (44_rotate_a R213). -/
def execRra (s : State) : Result :=
  rotateA (rr8 s.a s.flagC) s


end Sys2Proof.Machine
end

