-- ==== Sys2Proof/Machine/Stack.lean ====
section
/-! DEFINITION. PUSH and POP (45_stack R222 to R225). -/

namespace Sys2Proof.Machine

/-- `PUSH rr` (45_stack R222). -/
def execPushRr (rr : StackPair) (s : State) : Result :=
  push16Then (s.getPair rr) (internal 1 s) .next

/-- `PUSH AF` (45_stack R223). -/
def execPushAf (s : State) : Result :=
  push16Then s.af (internal 1 s) .next

/-- `POP rr` (45_stack R224). -/
def execPopRr (rr : StackPair) (s : State) : Result :=
  pop16Then s fun v t => .next (t.setPair rr v)

/-- `POP AF`: the low nibble of F is forced to zero (45_stack R225). -/
def execPopAf (s : State) : Result :=
  pop16Then s fun v t => .next (t.setAf v)


end Sys2Proof.Machine
end

