-- ==== Sys2Proof/Machine/Dispatch.lean ====
section
/-! DEFINITION. The meaning of each instruction. `exec i s` runs the operation of `i` in the state whose PC is already
past the bytes of `i` (00_scope R11, 10_state R25). -/

namespace Sys2Proof.Machine

def exec (i : Instr) (s : State) : Host.Outcome State Fault Refusal :=
  match i with
  | .rlcHl => Sys2Proof.Machine.execRlcHl s
  | .rrcHl => Sys2Proof.Machine.execRrcHl s
  | .rlHl => Sys2Proof.Machine.execRlHl s
  | .rrHl => Sys2Proof.Machine.execRrHl s
  | .slaHl => Sys2Proof.Machine.execSlaHl s
  | .sraHl => Sys2Proof.Machine.execSraHl s
  | .swapHl => Sys2Proof.Machine.execSwapHl s
  | .srlHl => Sys2Proof.Machine.execSrlHl s
  | .rlcR r => Sys2Proof.Machine.execRlcR r s
  | .rrcR r => Sys2Proof.Machine.execRrcR r s
  | .rlR r => Sys2Proof.Machine.execRlR r s
  | .rrR r => Sys2Proof.Machine.execRrR r s
  | .slaR r => Sys2Proof.Machine.execSlaR r s
  | .sraR r => Sys2Proof.Machine.execSraR r s
  | .swapR r => Sys2Proof.Machine.execSwapR r s
  | .srlR r => Sys2Proof.Machine.execSrlR r s
  | .bitHl bit => Sys2Proof.Machine.execBitHl bit s
  | .resHl bit => Sys2Proof.Machine.execResHl bit s
  | .setHl bit => Sys2Proof.Machine.execSetHl bit s
  | .bitR bit r => Sys2Proof.Machine.execBitR bit r s
  | .resR bit r => Sys2Proof.Machine.execResR bit r s
  | .setR bit r => Sys2Proof.Machine.execSetR bit r s
  | .ldHlN8 n => Sys2Proof.Machine.execLdHlN8 n s
  | .ldABc => Sys2Proof.Machine.execLdABc s
  | .ldADe => Sys2Proof.Machine.execLdADe s
  | .ldBcA => Sys2Proof.Machine.execLdBcA s
  | .ldDeA => Sys2Proof.Machine.execLdDeA s
  | .ldAA16 addr => Sys2Proof.Machine.execLdAA16 addr s
  | .ldA16A addr => Sys2Proof.Machine.execLdA16A addr s
  | .ldhAA8 n => Sys2Proof.Machine.execLdhAA8 n s
  | .ldhA8A n => Sys2Proof.Machine.execLdhA8A n s
  | .ldhAC => Sys2Proof.Machine.execLdhAC s
  | .ldhCA => Sys2Proof.Machine.execLdhCA s
  | .ldHlIncA => Sys2Proof.Machine.execLdHlIncA s
  | .ldAHlInc => Sys2Proof.Machine.execLdAHlInc s
  | .ldHlDecA => Sys2Proof.Machine.execLdHlDecA s
  | .ldAHlDec => Sys2Proof.Machine.execLdAHlDec s
  | .ldA16Sp addr => Sys2Proof.Machine.execLdA16Sp addr s
  | .ldSpHl => Sys2Proof.Machine.execLdSpHl s
  | .ldHlSpE8 n => Sys2Proof.Machine.execLdHlSpE8 n s
  | .addAHl => Sys2Proof.Machine.execAddAHl s
  | .addAN8 n => Sys2Proof.Machine.execAddAN8 n s
  | .adcAHl => Sys2Proof.Machine.execAdcAHl s
  | .adcAN8 n => Sys2Proof.Machine.execAdcAN8 n s
  | .subAHl => Sys2Proof.Machine.execSubAHl s
  | .subAN8 n => Sys2Proof.Machine.execSubAN8 n s
  | .sbcAHl => Sys2Proof.Machine.execSbcAHl s
  | .sbcAN8 n => Sys2Proof.Machine.execSbcAN8 n s
  | .andAHl => Sys2Proof.Machine.execAndAHl s
  | .andAN8 n => Sys2Proof.Machine.execAndAN8 n s
  | .xorAHl => Sys2Proof.Machine.execXorAHl s
  | .xorAN8 n => Sys2Proof.Machine.execXorAN8 n s
  | .orAHl => Sys2Proof.Machine.execOrAHl s
  | .orAN8 n => Sys2Proof.Machine.execOrAN8 n s
  | .cpAHl => Sys2Proof.Machine.execCpAHl s
  | .cpAN8 n => Sys2Proof.Machine.execCpAN8 n s
  | .addSpE8 n => Sys2Proof.Machine.execAddSpE8 n s
  | .incHl => Sys2Proof.Machine.execIncHl s
  | .decHl => Sys2Proof.Machine.execDecHl s
  | .rlca => Sys2Proof.Machine.execRlca s
  | .rrca => Sys2Proof.Machine.execRrca s
  | .rla => Sys2Proof.Machine.execRla s
  | .rra => Sys2Proof.Machine.execRra s
  | .pushAf => Sys2Proof.Machine.execPushAf s
  | .popAf => Sys2Proof.Machine.execPopAf s
  | .jrE8 n => Sys2Proof.Machine.execJrE8 n s
  | .jpA16 addr => Sys2Proof.Machine.execJpA16 addr s
  | .jpHl => Sys2Proof.Machine.execJpHl s
  | .callA16 addr => Sys2Proof.Machine.execCallA16 addr s
  | .ret => Sys2Proof.Machine.execRet s
  | .reti => Sys2Proof.Machine.execReti s
  | .nop => Sys2Proof.Machine.execNop s
  | .halt => Sys2Proof.Machine.execHalt s
  | .stop => Sys2Proof.Machine.execStop s
  | .di => Sys2Proof.Machine.execDi s
  | .ei => Sys2Proof.Machine.execEi s
  | .scf => Sys2Proof.Machine.execScf s
  | .ccf => Sys2Proof.Machine.execCcf s
  | .cpl => Sys2Proof.Machine.execCpl s
  | .prefixCb => Sys2Proof.Machine.execPrefixCb s
  | .daa => Sys2Proof.Machine.execDaa s
  | .illegalD3 => Sys2Proof.Machine.execIllegalD3 s
  | .illegalDB => Sys2Proof.Machine.execIllegalDB s
  | .illegalDD => Sys2Proof.Machine.execIllegalDD s
  | .illegalE3 => Sys2Proof.Machine.execIllegalE3 s
  | .illegalE4 => Sys2Proof.Machine.execIllegalE4 s
  | .illegalEB => Sys2Proof.Machine.execIllegalEB s
  | .illegalEC => Sys2Proof.Machine.execIllegalEC s
  | .illegalED => Sys2Proof.Machine.execIllegalED s
  | .illegalF4 => Sys2Proof.Machine.execIllegalF4 s
  | .illegalFC => Sys2Proof.Machine.execIllegalFC s
  | .illegalFD => Sys2Proof.Machine.execIllegalFD s
  | .ldRrN16 rr n => Sys2Proof.Machine.execLdRrN16 rr n s
  | .addHlRr rr => Sys2Proof.Machine.execAddHlRr rr s
  | .incRr rr => Sys2Proof.Machine.execIncRr rr s
  | .decRr rr => Sys2Proof.Machine.execDecRr rr s
  | .pushRr rr => Sys2Proof.Machine.execPushRr rr s
  | .popRr rr => Sys2Proof.Machine.execPopRr rr s
  | .jrCcE8 cc n => Sys2Proof.Machine.execJrCcE8 cc n s
  | .jpCcA16 cc addr => Sys2Proof.Machine.execJpCcA16 cc addr s
  | .callCcA16 cc addr => Sys2Proof.Machine.execCallCcA16 cc addr s
  | .retCc cc => Sys2Proof.Machine.execRetCc cc s
  | .ldRN8 r n => Sys2Proof.Machine.execLdRN8 r n s
  | .ldRHl r => Sys2Proof.Machine.execLdRHl r s
  | .ldHlR r => Sys2Proof.Machine.execLdHlR r s
  | .addAR r => Sys2Proof.Machine.execAddAR r s
  | .adcAR r => Sys2Proof.Machine.execAdcAR r s
  | .subAR r => Sys2Proof.Machine.execSubAR r s
  | .sbcAR r => Sys2Proof.Machine.execSbcAR r s
  | .andAR r => Sys2Proof.Machine.execAndAR r s
  | .xorAR r => Sys2Proof.Machine.execXorAR r s
  | .orAR r => Sys2Proof.Machine.execOrAR r s
  | .cpAR r => Sys2Proof.Machine.execCpAR r s
  | .incR r => Sys2Proof.Machine.execIncR r s
  | .decR r => Sys2Proof.Machine.execDecR r s
  | .rstVec vec => Sys2Proof.Machine.execRstVec vec s
  | .ldRR r r' => Sys2Proof.Machine.execLdRR r r' s

end Sys2Proof.Machine
end

