-- ==== Sys2Proof/Machine/Fetch.lean ====
section
/-! DEFINITION. Fetching an instruction (30_encoding R97, R99, R101), and placing one where the next step fetches. -/

namespace Sys2Proof.Machine

/-- Fetch the opcode and the bytes that belong to it, one bus read each, decode them and go on with the instruction
and the state, PC past its last byte. The bytes are fetched before any other effect of the instruction (DEDUCED, log
entry 5). -/
def fetchThen (s : State) (k : Instr → State → Result) : Result :=
  fetch8Then s fun op t =>
    if op = prefixByte then fetch8Then t fun sub u => k (decodeCb sub) u
    else
      match operandCount op with
      | 0 => k (decodePrimary op 0 0) t
      | 1 => fetch8Then t fun b1 u => k (decodePrimary op b1 0) u
      | _ => fetch8Then t fun b1 u => fetch8Then u fun b2 w => k (decodePrimary op b1 b2) w

/-- A byte written to this address is what a fetch reads back: a legal region, and no unmapped I/O offset
(20_memory R63). -/
def keepsByte (s : State) (addr : Word) : Bool :=
  match regionOf addr with
  | .cartridge | .wram | .hram | .ie => true
  | .io => !s.params.ioUnmapped.contains (addr.toNat - 0xFF00)
  | .vram | .externalRam | .echoRam | .oam | .unusable => false

/-- Put bytes into memory from `addr` up, wrapping at 0xFFFF (20_memory R65). -/
def placeBytes (addr : Word) : List Byte → Memory → Memory
  | [], m => m
  | v :: rest, m => placeBytes (addr + 1#16) rest (m.set addr.toNat v)

/-- Where an instruction can be placed for the next step: at PC, or at 0xC000 (WRAM) where one of the three bytes at
PC cannot hold code (DESIGN CHOICE, log entry 10). -/
def placeAddress (s : State) : Word :=
  if keepsByte s s.pc && keepsByte s (s.pc + 1#16) && keepsByte s (s.pc + 2#16) then s.pc else 0xC000#16

/-- `s` with the bytes of a table word, zeros after them up to three bytes, where the next step fetches, and running:
`halted` and `fatal` clear. -/
def placeTableWord (s : State) (nbits w : Nat) : State :=
  let bytes := tableWordBytes nbits w
  let mem := placeBytes (placeAddress s) (bytes ++ List.replicate (3 - bytes.length) 0#8) s.mem
  (((s.setPc (placeAddress s)).setHalted false).setFatal false).setMem mem

end Sys2Proof.Machine
end

