-- ==== Sys2Proof/Machine/Step.lean ====
section
/-! DEFINITION. One step of the machine (30_encoding R99). -/

namespace Sys2Proof.Machine

/-- `step()`: in the fault state no step; while halted an idle step; else fetch one instruction, run it, and end the
step with the EI delay (30_encoding R99, 10_state R29, R30, R38). -/
def step (s : State) : Host.Outcome State Fault Refusal :=
  if s.fatal then .fault .fatalStop
  else if s.halted then .next (idleStep s)
  else
    match fetchThen s exec with
    | .next t => .next (finishStep s.imePending t)
    | .fault r => .fault r
    | .refused r => .refused r

/-- `s` with a table word where the next step fetches (`placeTableWord`). -/
def State.withFetchWord (s : State) (nbits w : Nat) : State := placeTableWord s nbits w

end Sys2Proof.Machine
end

