-- ==== Sys2Proof/Safety.lean ====
section
/-! DEFINITION. What counts as a safe run, in the terms the claims use: the invariant every step keeps, and how a run
ends. -/

namespace Sys2Proof.Machine

/-- F's low nibble is zero (10_state R21). -/
def State.flagNibbleClear (s : State) : Bool := decide (s.f &&& 0x0F#8 = 0#8)

/-- The record is an illegal access (60_exceptions R312). -/
def Diag.isAccess : Diag → Bool
  | .illegalAccess _ _ _ => true
  | .illegalOpcode _ _ => false

/-- `fatal` is set exactly when an illegal access has been made under STRICT_ACCESS (10_state R38, 20_memory R54,
60_exceptions R312). -/
def State.fatalExact (s : State) : Bool :=
  decide (s.fatal = (s.params.strictAccess && s.diag.any Diag.isAccess))

/-- The invariant of every reachable state. -/
structure State.Inv (s : State) : Prop where
  flags : s.flagNibbleClear = true
  memory : s.mem.wf = true
  params : s.params.wf = true
  fatal : s.fatalExact = true

/-- The record an access leaves: none where it is legal (20_memory R52 to R54). -/
def accessRecord (addr : Word) (dir : Direction) : List Diag :=
  if (regionOf addr).legal then [] else [.illegalAccess (regionOf addr) addr dir]

/-- The address stores what is written to it and reads it back (20_memory R63). -/
def readsBack (s : State) (addr : Word) : Bool :=
  keepsByte s addr && (decide (s.params.cartWrite = .store) || decide (regionOf addr ≠ .cartridge))

/-- Nothing illegal has been recorded: the premise 92_eei_decisions D4, D5 and D15 ask for before a claim is read as
one about real hardware. -/
def State.clean (s : State) : Bool := s.diag.isEmpty

/-- A program has ended normally: `halted` set, no fault, and an empty log (70_reset_and_hazards R344,
92_eei_decisions D19). R344 leaves it to a model whether the log must be empty. DESIGN CHOICE, log entry 25: here it
must, which also tells HALT from an illegal opcode under STRICT_OPCODE. -/
def State.endedNormally (s : State) : Bool := s.halted && !s.fatal && s.clean

end Sys2Proof.Machine
end

