-- ==== Sys2Proof/Certificates/Slice0/Obligations.lean ====
section
/-! DEFINITION. The statements for the provers, and the words they are written in. A result is stated in the spec's
own arithmetic on natural numbers, an encoding by its bytes, a timing by its total T-cycles, and what an instruction
leaves alone by `ChangesOnly`. The opcode bytes and T-cycles that `Runs` states are those of the Encoding and Timing
lines of the rules; the spec marks most of them as its own (92_eei_decisions D12, D18). -/

namespace Sys2Proof.Claims

open Sys2Proof.Machine

/-! Words. -/

/-- The index of a register in the table of 30_encoding R92. -/
def slot : Reg8 → Byte
  | .b => 0#8
  | .c => 1#8
  | .d => 2#8
  | .e => 3#8
  | .h => 4#8
  | .l => 5#8
  | .a => 7#8

/-- The index of a pair in the table of 30_encoding R93. -/
def rpIndex : Reg16 → Byte
  | .bc => 0#8
  | .de => 1#8
  | .hl => 2#8
  | .sp => 3#8

/-- The index of a pair in the table of 30_encoding R94. -/
def rp2Index : StackPair → Byte
  | .bc => 0#8
  | .de => 1#8
  | .hl => 2#8

/-- The index of a condition in the table of 30_encoding R95. -/
def ccIndex : Cond → Byte
  | .nz => 0#8
  | .z => 1#8
  | .nc => 2#8
  | .c => 3#8

/-- The low byte of a word as a number modulo 256. -/
def lowByte (v : Word) : Byte := BitVec.ofNat 8 (v.toNat % 256)

/-- The high byte of a word. -/
def highByte (v : Word) : Byte := BitVec.ofNat 8 (v.toNat / 256)

/-- The value of a 16-bit register (10_state R23): the first-named register is the high byte. -/
def value16 (s : State) : Reg16 → Nat
  | .bc => s.b.toNat * 256 + s.c.toNat
  | .de => s.d.toNat * 256 + s.e.toNat
  | .hl => s.h.toNat * 256 + s.l.toNat
  | .sp => s.sp.toNat

/-- The value of a pair that PUSH and POP name. -/
def valuePair (s : State) : StackPair → Nat
  | .bc => value16 s .bc
  | .de => value16 s .de
  | .hl => value16 s .hl

/-- A flag of F as 0 or 1, by its bit number (10_state R21). -/
def flagBit (s : State) (bit : Nat) : Nat := s.f.toNat / 2 ^ bit % 2

/-- The carry flag as 0 or 1. -/
def carry (s : State) : Nat := flagBit s 4

/-- `cond(cc)` (46_control R230). -/
def holds (s : State) : Cond → Bool
  | .nz => decide (flagBit s 7 = 0)
  | .z => decide (flagBit s 7 = 1)
  | .nc => decide (flagBit s 4 = 0)
  | .c => decide (flagBit s 4 = 1)

/-- `sext_16(b)` added modulo 65536 (00_scope R7, 30_encoding R98). -/
def plusOffset (base : Nat) (n : Byte) : Nat := if n.toNat < 128 then (base + n.toNat) % 65536 else (base + 0xFF00 + n.toNat) % 65536

/-- F holds exactly these four flags, and its low nibble is zero (10_state R21). -/
def HasFlags (t : State) (z n h c : Bool) : Prop :=
  t.f.toNat = 0x80 * z.toNat + 0x40 * n.toNat + 0x20 * h.toNat + 0x10 * c.toNat

/-! Frames. -/

/-- The parts of the state. -/
inductive Part
  | reg (r : Reg8)
  | flags | sp | pc | ime | imePending | halted | stopped | memory | diag | ticks | fatal | params
deriving DecidableEq, Repr

/-- The part is the same in both states. -/
def Part.same (s t : State) : Part → Prop
  | .reg r => t.getReg8 r = s.getReg8 r
  | .flags => t.f = s.f
  | .sp => t.sp = s.sp
  | .pc => t.pc = s.pc
  | .ime => t.ime = s.ime
  | .imePending => t.imePending = s.imePending
  | .halted => t.halted = s.halted
  | .stopped => t.stopped = s.stopped
  | .memory => t.mem = s.mem ∧ ∀ x : Word, readByte t x = readByte s x
  | .diag => t.diag = s.diag
  | .ticks => t.ticks = s.ticks
  | .fatal => t.fatal = s.fatal
  | .params => t.params = s.params

/-- Every part but the listed ones is unchanged. -/
def ChangesOnly (parts : List Part) (s t : State) : Prop := ∀ p : Part, p ∉ parts → p.same s t

/-- The registers of a 16-bit operand. -/
def parts16 : Reg16 → List Part
  | .bc => [.reg .b, .reg .c]
  | .de => [.reg .d, .reg .e]
  | .hl => [.reg .h, .reg .l]
  | .sp => [.sp]

/-- The registers of a pair that PUSH and POP name. -/
def partsPair : StackPair → List Part
  | .bc => parts16 .bc
  | .de => parts16 .de
  | .hl => parts16 .hl

/-- A write to this address reaches a stored byte (20_memory R53, R58). -/
def storesAt (s : State) (addr : Word) : Bool :=
  match regionOf addr with
  | .cartridge => decide (s.params.cartWrite = .store)
  | .wram | .io | .hram | .ie => true
  | .vram | .externalRam | .echoRam | .oam | .unusable => false

/-- Every byte outside the listed addresses reads as before. -/
def SameBytesBut (stored : List Word) (s t : State) : Prop := ∀ x : Word, x ∉ stored → readByte t x = readByte s x

/-- The one store of `v` at `addr`: every other byte reads as before, the cell at `addr` holds `v` where the region
stores it, no other cell changes, and `addr` reads back as `v` where it can (20_memory R53, R58, R63). -/
def Stored (s t : State) (addr : Word) (v : Byte) : Prop :=
  SameBytesBut [addr] s t ∧
    (s.mem.wf = true → ∀ x : Nat, t.mem.get x =
      if x = addr.toNat ∧ storesAt s addr = true then v else s.mem.get x) ∧
    (s.mem.wf = true → readsBack s addr = true → readByte t addr = v)

/-- As `Stored`, of `v` at `first` and of `w` at the address `second`, another one. -/
def StoredTwo (s t : State) (first : Word) (v : Byte) (second : Word) (w : Byte) : Prop :=
  SameBytesBut [first, second] s t ∧
    (s.mem.wf = true → ∀ x : Nat, t.mem.get x =
      if x = first.toNat ∧ storesAt s first = true then v
      else if x = second.toNat ∧ storesAt s second = true then w
      else s.mem.get x) ∧
    (s.mem.wf = true → readsBack s first = true → readByte t first = v) ∧
    (s.mem.wf = true → readsBack s second = true → readByte t second = w)

/-- A read at this address gives 0x00 where the region is illegal (20_memory R54). -/
def ReadsZeroInGap (s : State) (addr : Word) : Prop := (regionOf addr).legal = false → readByte s addr = 0x00#8

/-! What it is to run. -/

/-- `i` is encoded as `bytes`, runs from `s` to `t`, and takes `cycles` T-cycles counting the fetch of its bytes. -/
def Runs (i : Instr) (bytes : List Byte) (cycles : Nat) (s t : State) : Prop :=
  encode i = bytes ∧ exec i s = .next t ∧ t.ticks + 4 * bytes.length = s.ticks + cycles

/-- The three bytes at PC, wrapping at 0xFFFF (30_encoding R90, R98). -/
def codeBytes (s : State) : List Byte := [readByte s s.pc, readByte s (s.pc + 1#16), readByte s (s.pc + 2#16)]

/-- The records of `n` byte fetches at PC (20_memory R54). -/
def fetchRecords (s : State) (n : Nat) : List Diag :=
  (List.range n).flatMap fun k => accessRecord (s.pc + BitVec.ofNat 16 k) .read

/-- The state after `n` bytes have been fetched: PC past them, 4 T-cycles for each, the records of illegal fetches. -/
def fetched (s : State) (n : Nat) : State :=
  { s with pc := s.pc + BitVec.ofNat 16 n, ticks := s.ticks + 4 * n, diag := s.diag ++ fetchRecords s n }

/-- The state in which an illegal access under STRICT_ACCESS has ended the step (20_memory R54). -/
def stoppedAt (s : State) (addr : Word) (dir : Direction) : State :=
  { s with ticks := s.ticks + 4, diag := s.diag ++ [.illegalAccess (regionOf addr) addr dir], fatal := true }

/-- The end of an instruction step (10_state R29, 30_encoding R99). -/
def withEiDelay (s t : State) : State :=
  if s.imePending = true ∧ t.imePending = true ∧ t.fatal = false then { t with ime := true, imePending := false } else t

/-- The illegal opcode rows with their bytes (30_encoding R102). -/
def illegalRows : List (Instr × Byte) :=
  [(.illegalD3, 0xD3#8), (.illegalDB, 0xDB#8), (.illegalDD, 0xDD#8), (.illegalE3, 0xE3#8), (.illegalE4, 0xE4#8),
    (.illegalEB, 0xEB#8), (.illegalEC, 0xEC#8), (.illegalED, 0xED#8), (.illegalF4, 0xF4#8), (.illegalFC, 0xFC#8),
    (.illegalFD, 0xFD#8)]

/-- The eleven illegal bytes (30_encoding R102). -/
def illegalBytes : List Byte := illegalRows.map Prod.snd

/-- The length of an instruction by its opcode byte (30_encoding R104). -/
def lengthOf (op : Byte) : Nat :=
  if op ∈ [0x01#8, 0x11#8, 0x21#8, 0x31#8, 0x08#8, 0xC2#8, 0xC3#8, 0xC4#8, 0xCA#8, 0xCC#8, 0xCD#8, 0xD2#8, 0xD4#8,
      0xDA#8, 0xDC#8, 0xEA#8, 0xFA#8] then 3
  else if op.toNat / 64 = 0 ∧ op.toNat % 8 = 6 ∨ op.toNat / 64 = 3 ∧ op.toNat % 8 = 6 ∨
      op ∈ [0x18#8, 0x20#8, 0x28#8, 0x30#8, 0x38#8, 0xE0#8, 0xE8#8, 0xF0#8, 0xF8#8, 0xCB#8] then 2
  else 1

/-! Shapes shared by several statements. -/

/-- `i` loads `r` with the byte at `addr`; an illegal region gives 0x00 with a record (40_load). -/
def LoadsByte (i : Instr) (bytes : List Byte) (cycles : Nat) (r : Reg8) (addr : State → Word) : Prop :=
  ∀ s : State, accessStops s (addr s) = false → ∃ t : State, Runs i bytes cycles s t ∧
    t.getReg8 r = readByte s (addr s) ∧ ReadsZeroInGap s (addr s) ∧
    t.diag = s.diag ++ accessRecord (addr s) .read ∧ ChangesOnly [.reg r, .ticks, .diag] s t

/-- As `LoadsByte` into A from HL, and HL moves by `step` modulo 65536 (40_load R136, R138). -/
def LoadsAMovingHl (i : Instr) (bytes : List Byte) (cycles step : Nat) : Prop :=
  ∀ s : State, accessStops s s.hl = false → ∃ t : State, Runs i bytes cycles s t ∧
    t.a = readByte s s.hl ∧ ReadsZeroInGap s s.hl ∧
    value16 t .hl = (value16 s .hl + step) % 65536 ∧
    t.diag = s.diag ++ accessRecord s.hl .read ∧ ChangesOnly [.reg .a, .reg .h, .reg .l, .ticks, .diag] s t

/-- `i` stores `v` at `addr`; an illegal region drops it with a record (40_load). -/
def StoresByte (i : Instr) (bytes : List Byte) (cycles : Nat) (addr : State → Word) (v : State → Byte) : Prop :=
  ∀ s : State, accessStops s (addr s) = false → ∃ t : State, Runs i bytes cycles s t ∧
    Stored s t (addr s) (v s) ∧ t.diag = s.diag ++ accessRecord (addr s) .write ∧
    ChangesOnly [.memory, .ticks, .diag] s t

/-- As `StoresByte` of A at HL, and HL moves by `step` modulo 65536 (40_load R135, R137). -/
def StoresAMovingHl (i : Instr) (bytes : List Byte) (cycles step : Nat) : Prop :=
  ∀ s : State, accessStops s s.hl = false → ∃ t : State, Runs i bytes cycles s t ∧
    Stored s t s.hl s.a ∧ value16 t .hl = (value16 s .hl + step) % 65536 ∧
    t.diag = s.diag ++ accessRecord s.hl .write ∧ ChangesOnly [.memory, .reg .h, .reg .l, .ticks, .diag] s t

/-- The three source forms of an operation on A (41_alu8 R152): `post s v t` says what the operation does with the
source byte `v`, and `parts` what it changes. -/
def AluForms (reg : Reg8 → Instr) (hl : Instr) (imm : Byte → Instr) (base immOp : Byte) (parts : List Part)
    (post : State → Byte → State → Prop) : Prop :=
  (∀ (s : State) (r : Reg8), ∃ t : State, Runs (reg r) [base + slot r] 4 s t ∧ post s (s.getReg8 r) t ∧
      ChangesOnly parts s t) ∧
    (∀ s : State, accessStops s s.hl = false → ∃ t : State, Runs hl [base + 6#8] 8 s t ∧ post s (readByte s s.hl) t ∧
      ReadsZeroInGap s s.hl ∧ t.diag = s.diag ++ accessRecord s.hl .read ∧ ChangesOnly (.ticks :: .diag :: parts) s t) ∧
    (∀ (s : State) (n : Byte), ∃ t : State, Runs (imm n) [immOp, n] 8 s t ∧ post s n t ∧ ChangesOnly parts s t)

/-- The sum of R150 with the carry-in `cin`. -/
def AddPost (cin : Nat) (s : State) (v : Byte) (t : State) : Prop :=
  t.a.toNat = (s.a.toNat + v.toNat + cin) % 256 ∧
    HasFlags t (decide ((s.a.toNat + v.toNat + cin) % 256 = 0)) false
      (decide (s.a.toNat % 16 + v.toNat % 16 + cin > 0x0F)) (decide (s.a.toNat + v.toNat + cin > 0xFF))

/-- The flags of R151 with the borrow-in `cin`. -/
def SubFlags (cin : Nat) (s : State) (v : Byte) (t : State) : Prop :=
  HasFlags t (decide ((s.a.toNat + 512 - v.toNat - cin) % 256 = 0)) true
    (decide (s.a.toNat % 16 < v.toNat % 16 + cin)) (decide (s.a.toNat < v.toNat + cin))

/-- The difference of R151 with the borrow-in `cin`. -/
def SubPost (cin : Nat) (s : State) (v : Byte) (t : State) : Prop :=
  t.a.toNat = (s.a.toNat + 512 - v.toNat - cin) % 256 ∧ SubFlags cin s v t

/-- The two forms of an operation that rewrites a byte and all its flags: a register, and the byte at HL by one read
and one write of the same address (48_cb_prefix R270, 43_incdec8). -/
def RewriteForms (reg : Reg8 → Instr) (hl : Instr) (regBytes : Reg8 → List Byte) (hlBytes : List Byte)
    (regCycles hlCycles : Nat) (flagParts : List Part) (result : State → Byte → Nat)
    (flags : State → Byte → State → Prop) : Prop :=
  (∀ (s : State) (r : Reg8), ∃ t : State, Runs (reg r) (regBytes r) regCycles s t ∧
      (t.getReg8 r).toNat = result s (s.getReg8 r) ∧ flags s (s.getReg8 r) t ∧
      ChangesOnly (.reg r :: flagParts) s t) ∧
    (∀ s : State, accessStops s s.hl = false → ∃ t : State, Runs hl hlBytes hlCycles s t ∧
      Stored s t s.hl (BitVec.ofNat 8 (result s (readByte s s.hl))) ∧ flags s (readByte s s.hl) t ∧
      ReadsZeroInGap s s.hl ∧
      t.diag = s.diag ++ accessRecord s.hl .read ++ accessRecord s.hl .write ∧
      ChangesOnly (.memory :: .ticks :: .diag :: flagParts) s t)

/-- The CB rotate, shift and swap forms: sub-opcodes `base + slot` and `base + 6`, Z from the result, N = H = 0, C the
bit shifted out (48_cb_prefix R270). `result` and `out` take the byte and the carry before. -/
def ShiftForms (reg : Reg8 → Instr) (hl : Instr) (base : Byte) (result out : Nat → Nat → Nat) : Prop :=
  RewriteForms reg hl (fun r => [0xCB#8, base + slot r]) [0xCB#8, base + 6#8] 8 16 [.flags]
    (fun s v => result v.toNat (carry s))
    (fun s v t =>
      HasFlags t (decide (result v.toNat (carry s) = 0)) false false (decide (out v.toNat (carry s) = 1)))

/-- The word `v` has been pushed from `s` to `t` (45_stack R220): high byte at SP - 1, low byte at SP - 2. -/
def Pushed (s t : State) (v : Word) : Prop :=
  t.sp = s.sp - 2#16 ∧ StoredTwo s t (s.sp - 1#16) (highByte v) (s.sp - 2#16) (lowByte v) ∧
    t.diag = s.diag ++ accessRecord (s.sp - 1#16) .write ++ accessRecord (s.sp - 2#16) .write

/-- Neither byte of a push stops the step. -/
def PushGoes (s : State) : Prop := accessStops s (s.sp - 1#16) = false ∧ accessStops s (s.sp - 2#16) = false

/-- Neither byte of a pop stops the step. -/
def PopGoes (s : State) : Prop := accessStops s s.sp = false ∧ accessStops s (s.sp + 1#16) = false

/-- The word on top of the stack: low byte at SP, high byte at SP + 1 (45_stack R221). -/
def topOfStack (s : State) : Nat := (readByte s (s.sp + 1#16)).toNat * 256 + (readByte s s.sp).toNat

/-- The word has been popped: SP moves up by 2, and a byte in an illegal region is 0x00 and leaves a record (45_stack
R221). -/
def Popped (s t : State) : Prop :=
  t.sp = s.sp + 2#16 ∧ ReadsZeroInGap s s.sp ∧ ReadsZeroInGap s (s.sp + 1#16) ∧
    t.diag = s.diag ++ accessRecord s.sp .read ++ accessRecord (s.sp + 1#16) .read

/-- `i` pushes `v`. -/
def Pushes (i : Instr) (bytes : List Byte) (v : State → Word) : Prop :=
  ∀ s : State, PushGoes s → ∃ t : State, Runs i bytes 16 s t ∧ Pushed s t (v s) ∧
    ChangesOnly [.sp, .memory, .diag, .ticks] s t

/-- From `s`, `i` calls `target`: the pushed address is PC, which is past the instruction (46_control R236). -/
def CallsFrom (i : Instr) (bytes : List Byte) (cycles : Nat) (target : Word) (s : State) : Prop :=
  PushGoes s → ∃ t : State, Runs i bytes cycles s t ∧ Pushed s t s.pc ∧ t.pc = target ∧
    ChangesOnly [.pc, .sp, .memory, .diag, .ticks] s t

/-- From `s`, `i` returns: PC is the word on the stack (46_control R238); `more` lists what else it changes. -/
def ReturnsFrom (i : Instr) (bytes : List Byte) (cycles : Nat) (more : List Part) (s : State) : Prop :=
  PopGoes s → ∃ t : State, Runs i bytes cycles s t ∧ Popped s t ∧ t.pc.toNat = topOfStack s ∧
    (Part.ime ∈ more → t.ime = true) ∧ ChangesOnly (.pc :: .sp :: .diag :: .ticks :: more) s t

/-- From `s`, `i` does nothing but pass its time. -/
def PassesFrom (i : Instr) (bytes : List Byte) (cycles : Nat) (s : State) : Prop :=
  ∃ t : State, Runs i bytes cycles s t ∧ ChangesOnly [.ticks] s t

/-- From `s`, `i` jumps to `target` and changes nothing else. -/
def JumpsFrom (i : Instr) (bytes : List Byte) (cycles target : Nat) (s : State) : Prop :=
  ∃ t : State, Runs i bytes cycles s t ∧ t.pc.toNat = target ∧ ChangesOnly [.pc, .ticks] s t

/-- `i` writes A and all four flags, and nothing else. -/
def RotatesA (i : Instr) (op : Byte) (result out : Nat → Nat → Nat) : Prop :=
  ∀ s : State, ∃ t : State, Runs i [op] 4 s t ∧ t.a.toNat = result s.a.toNat (carry s) ∧
    HasFlags t false false false (decide (out s.a.toNat (carry s) = 1)) ∧ ChangesOnly [.reg .a, .flags] s t

/-- The instructions whose first bus access is a read of the byte at HL. -/
def readsHlFirst : Instr → Bool
  | .ldRHl _ | .ldAHlInc | .ldAHlDec | .incHl | .decHl => true
  | .addAHl | .adcAHl | .subAHl | .sbcAHl | .andAHl | .xorAHl | .orAHl | .cpAHl => true
  | .rlcHl | .rrcHl | .rlHl | .rrHl | .slaHl | .sraHl | .swapHl | .srlHl => true
  | .bitHl _ | .resHl _ | .setHl _ => true
  | _ => false

/-- The instructions whose first bus access is a write of the byte at HL. -/
def writesHlFirst : Instr → Bool
  | .ldHlR _ | .ldHlN8 _ | .ldHlIncA | .ldHlDecA => true
  | _ => false

/-- The instructions that push a word in this state: PUSH, CALL, RST, and CALL cc where the condition holds. -/
def pushesIn (s : State) : Instr → Bool
  | .pushRr _ | .pushAf | .callA16 _ | .rstVec _ => true
  | .callCcA16 cc _ => holds s cc
  | _ => false

/-- The word such an instruction pushes (45_stack R222, R223, 46_control R236, R237, R247). -/
def pushedWord (s : State) : Instr → Word
  | .pushRr rr => BitVec.ofNat 16 (valuePair s rr)
  | .pushAf => BitVec.ofNat 16 (s.a.toNat * 256 + s.f.toNat)
  | _ => s.pc

/-- The instructions that pop a word in this state: POP, RET, RETI, and RET cc where the condition holds. -/
def popsIn (s : State) : Instr → Bool
  | .popRr _ | .popAf | .ret | .reti => true
  | .retCc cc => holds s cc
  | _ => false

/-- The T-cycles between the fetch of such an instruction and its first read: the internal cycle of RET cc (46_control
R239). -/
def cyclesBeforePop : Instr → Nat
  | .retCc _ => 4
  | _ => 0

/-- The instructions 10_state R22 lists as writing Z. -/
def writesZ : Instr → Bool
  | .addAR _ | .addAHl | .addAN8 _ | .adcAR _ | .adcAHl | .adcAN8 _ | .subAR _ | .subAHl | .subAN8 _ => true
  | .sbcAR _ | .sbcAHl | .sbcAN8 _ | .andAR _ | .andAHl | .andAN8 _ | .xorAR _ | .xorAHl | .xorAN8 _ => true
  | .orAR _ | .orAHl | .orAN8 _ | .cpAR _ | .cpAHl | .cpAN8 _ => true
  | .incR _ | .incHl | .decR _ | .decHl | .daa | .rlca | .rrca | .rla | .rra | .addSpE8 _ | .ldHlSpE8 _ => true
  | .rlcR _ | .rlcHl | .rrcR _ | .rrcHl | .rlR _ | .rlHl | .rrR _ | .rrHl => true
  | .slaR _ | .slaHl | .sraR _ | .sraHl | .swapR _ | .swapHl | .srlR _ | .srlHl => true
  | .bitR _ _ | .bitHl _ | .popAf => true
  | _ => false

/-- The instructions 10_state R22 lists as writing N. -/
def writesN : Instr → Bool
  | .daa => false
  | .addHlRr _ | .scf | .ccf | .cpl => true
  | i => writesZ i

/-- The instructions 10_state R22 lists as writing H. -/
def writesH : Instr → Bool
  | .daa => true
  | i => writesN i

/-- The instructions 10_state R22 lists as writing C. -/
def writesC : Instr → Bool
  | .incR _ | .incHl | .decR _ | .decHl | .bitR _ _ | .bitHl _ | .cpl => false
  | i => writesH i

/-- The T-cycles of the table of 70_reset_and_hazards R346; `taken` tells whether the condition holds. -/
def tCycles (taken : Bool) : Instr → Nat
  | .nop | .halt | .stop | .di | .ei | .scf | .ccf | .cpl | .daa | .rlca | .rrca | .rla | .rra => 4
  | .illegalD3 | .illegalDB | .illegalDD | .illegalE3 | .illegalE4 | .illegalEB | .illegalEC | .illegalED
  | .illegalF4 | .illegalFC | .illegalFD => 4
  | .ldRR _ _ | .incR _ | .decR _ | .jpHl => 4
  | .addAR _ | .adcAR _ | .subAR _ | .sbcAR _ | .andAR _ | .xorAR _ | .orAR _ | .cpAR _ => 4
  | .ldRN8 _ _ => 8
  | .addAN8 _ | .adcAN8 _ | .subAN8 _ | .sbcAN8 _ | .andAN8 _ | .xorAN8 _ | .orAN8 _ | .cpAN8 _ => 8
  | .ldRHl _ | .ldABc | .ldADe | .ldAHlInc | .ldAHlDec | .ldhAC => 8
  | .addAHl | .adcAHl | .subAHl | .sbcAHl | .andAHl | .xorAHl | .orAHl | .cpAHl => 8
  | .ldHlR _ | .ldBcA | .ldDeA | .ldHlIncA | .ldHlDecA | .ldhCA => 8
  | .incRr _ | .decRr _ | .addHlRr _ | .ldSpHl => 8
  | .ldRrN16 _ _ | .ldHlN8 _ | .incHl | .decHl | .ldhAA8 _ | .ldhA8A _ | .ldHlSpE8 _ | .popRr _ | .popAf | .jrE8 _ => 12
  | .jrCcE8 _ _ => if taken then 12 else 8
  | .ldAA16 _ | .ldA16A _ | .addSpE8 _ | .pushRr _ | .pushAf | .jpA16 _ | .ret | .reti | .rstVec _ => 16
  | .jpCcA16 _ _ => if taken then 16 else 12
  | .retCc _ => if taken then 20 else 8
  | .ldA16Sp _ => 20
  | .callA16 _ => 24
  | .callCcA16 _ _ => if taken then 24 else 12
  | .rlcR _ | .rrcR _ | .rlR _ | .rrR _ | .slaR _ | .sraR _ | .swapR _ | .srlR _ => 8
  | .bitR _ _ | .resR _ _ | .setR _ _ => 8
  | .bitHl _ => 12
  | .rlcHl | .rrcHl | .rlHl | .rrHl | .slaHl | .sraHl | .swapHl | .srlHl | .resHl _ | .setHl _ => 16
  | .prefixCb => 0

/-- The condition of a conditional instruction holds. -/
def taken (s : State) : Instr → Bool
  | .jrCcE8 cc _ | .jpCcA16 cc _ | .callCcA16 cc _ | .retCc cc => holds s cc
  | _ => true

/-- Two states that differ at most in what no instruction reads: IME, `ime_pending`, the stopped latch, the log and
the tick count (10_state R28, R31, R36, R37). -/
def SameButUnread (s t : State) : Prop :=
  t = { s with
    ime := t.ime, imePending := t.imePending, stopped := t.stopped, diag := t.diag, ticks := t.ticks }

/-- The packed-BCD byte of a number below 100. -/
def bcd (n : Nat) : Byte := BitVec.ofNat 8 (n / 10 * 16 + n % 10)

end Sys2Proof.Claims

open Sys2Proof Sys2Proof.Machine Sys2Proof.Claims

/-! Encoding. -/

/-- Decoding an encoded well-formed instruction gives it back and leaves the bytes after it (30_encoding R90, R100,
R101, R107). The row PREFIX CB decodes from its byte alone (log entry 8). -/
def Obligations.DecodeOfEncodeGivesInstruction : Prop :=
  (∀ (i : Instr) (rest : List Byte), i.wf = true → i ≠ .prefixCb → decode (encode i ++ rest) = .instr i rest) ∧
    decode (encode .prefixCb) = .instr .prefixCb []

/-- The other direction: the bytes consumed by decoding are the encoding of the instruction, which is well formed, so
each word has one meaning (30_encoding R100 to R104). -/
def Obligations.EncodeOfDecodeGivesBytes : Prop :=
  ∀ (bytes rest : List Byte) (i : Instr), decode bytes = .instr i rest → i.wf = true ∧ encode i ++ rest = bytes

/-- Three bytes always decode, and the opcode byte alone fixes the length (30_encoding R104). That STOP is one byte
long is the spec's own decision, D9 (log entry 16). -/
def Obligations.OpcodeByteFixesLength : Prop :=
  ∀ (op b1 b2 : Byte) (rest : List Byte), ∃ i : Instr,
    decode (op :: b1 :: b2 :: rest) = .instr i ((op :: b1 :: b2 :: rest).drop (lengthOf op)) ∧
      (encode i).length = lengthOf op

/-- An instruction decodes to an illegal row exactly when its first byte is that row's byte: the eleven gaps and no
other byte (30_encoding R100, R102). -/
def Obligations.ExactlyElevenBytesAreIllegal : Prop :=
  illegalBytes.length = 11 ∧
    ∀ (op b1 b2 : Byte) (i : Instr) (rest : List Byte), decode [op, b1, b2] = .instr i rest →
      (op ∈ illegalBytes ↔ i ∈ illegalRows.map Prod.fst) ∧ ((i, op) ∈ illegalRows ↔ op ∈ illegalBytes)

/-- The CB table by `sub = x * 64 + y * 8 + r` (30_encoding R101). -/
def Obligations.CbTableByFields : Prop :=
  (∀ r : Reg8,
      decode [0xCB#8, 0x00#8 + slot r] = .instr (.rlcR r) [] ∧ decode [0xCB#8, 0x08#8 + slot r] = .instr (.rrcR r) [] ∧
      decode [0xCB#8, 0x10#8 + slot r] = .instr (.rlR r) [] ∧ decode [0xCB#8, 0x18#8 + slot r] = .instr (.rrR r) [] ∧
      decode [0xCB#8, 0x20#8 + slot r] = .instr (.slaR r) [] ∧ decode [0xCB#8, 0x28#8 + slot r] = .instr (.sraR r) [] ∧
      decode [0xCB#8, 0x30#8 + slot r] = .instr (.swapR r) [] ∧ decode [0xCB#8, 0x38#8 + slot r] = .instr (.srlR r) []) ∧
    (decode [0xCB#8, 0x06#8] = .instr .rlcHl [] ∧ decode [0xCB#8, 0x0E#8] = .instr .rrcHl [] ∧
      decode [0xCB#8, 0x16#8] = .instr .rlHl [] ∧ decode [0xCB#8, 0x1E#8] = .instr .rrHl [] ∧
      decode [0xCB#8, 0x26#8] = .instr .slaHl [] ∧ decode [0xCB#8, 0x2E#8] = .instr .sraHl [] ∧
      decode [0xCB#8, 0x36#8] = .instr .swapHl [] ∧ decode [0xCB#8, 0x3E#8] = .instr .srlHl []) ∧
    (∀ (bit : Nat) (r : Reg8), bit < 8 →
      decode [0xCB#8, BitVec.ofNat 8 (0x40 + 8 * bit) + slot r] = .instr (.bitR bit r) [] ∧
      decode [0xCB#8, BitVec.ofNat 8 (0x80 + 8 * bit) + slot r] = .instr (.resR bit r) [] ∧
      decode [0xCB#8, BitVec.ofNat 8 (0xC0 + 8 * bit) + slot r] = .instr (.setR bit r) []) ∧
    (∀ bit : Nat, bit < 8 →
      decode [0xCB#8, BitVec.ofNat 8 (0x46 + 8 * bit)] = .instr (.bitHl bit) [] ∧
      decode [0xCB#8, BitVec.ofNat 8 (0x86 + 8 * bit)] = .instr (.resHl bit) [] ∧
      decode [0xCB#8, BitVec.ofNat 8 (0xC6 + 8 * bit)] = .instr (.setHl bit) [])

/-- The opcode bytes the document itself fixes, and one word of each other family (30_encoding preamble, R100). -/
def Obligations.DocumentBytesDecode : Prop :=
  decode [0x00#8] = .instr .nop [] ∧ decode [0x06#8, 0x01#8] = .instr (.ldRN8 .b 0x01#8) [] ∧
    decode [0x3E#8, 0x05#8] = .instr (.ldRN8 .a 0x05#8) [] ∧ decode [0x76#8] = .instr .halt [] ∧
    decode [0x80#8] = .instr (.addAR .b) [] ∧ decode [0x90#8] = .instr (.subAR .b) [] ∧
    decode [0xC6#8, 0x03#8] = .instr (.addAN8 0x03#8) [] ∧ decode [0xC9#8] = .instr .ret [] ∧
    decode [0xCD#8, 0x0A#8, 0x01#8] = .instr (.callA16 0x010A#16) [] ∧
    decode [0xCB#8, 0x40#8] = .instr (.bitR 0 .b) [] ∧ decode [0xCB#8, 0x48#8] = .instr (.bitR 1 .b) [] ∧
    decode [0x08#8, 0x00#8, 0xC1#8] = .instr (.ldA16Sp 0xC100#16) [] ∧
    decode [0x39#8] = .instr (.addHlRr .sp) [] ∧ decode [0x35#8] = .instr .decHl [] ∧
    decode [0x1F#8] = .instr .rra [] ∧ decode [0xF1#8] = .instr .popAf [] ∧
    decode [0x38#8, 0x02#8] = .instr (.jrCcE8 .c 0x02#8) [] ∧ decode [0xEF#8] = .instr (.rstVec 0x28#8) [] ∧
    decode [0xED#8] = .instr .illegalED []

/-! The step. -/

/-- One step (30_encoding R99): in the fault state none, while halted an idle step, else the decoded instruction run
with PC past its bytes and the EI delay at its end. The instruction's bytes must not stop the step
(`FetchFromIllegalRegion` says what happens where they do). That all bytes are fetched before any other effect is
DEDUCED (log entry 5), and so is that a step STRICT_ACCESS has ended does not carry out the EI delay (log entry 7). -/
def Obligations.StepRunsDecodedInstruction : Prop :=
  (∀ s : State, s.fatal = true → step s = .fault .fatalStop) ∧
    (∀ s : State, s.fatal = false → s.halted = true → step s = .next { s with ticks := s.ticks + 4 }) ∧
    (∀ (s : State) (i : Instr) (rest : List Byte), s.fatal = false → s.halted = false →
      decode (codeBytes s) = .instr i rest →
      (∀ k : Nat, k < (encode i).length → accessStops s (s.pc + BitVec.ofNat 16 k) = false) →
      step s =
        match exec i (fetched s (encode i).length) with
        | .next t => .next (withEiDelay s t)
        | .fault r => .fault r
        | .refused r => .refused r)

/-- A byte fetch from an illegal region under STRICT_ACCESS ends the step: the record, `fatal`, 4 T-cycles, and PC at
the byte whose fetch it was (20_memory R54, 60_exceptions R312; that PC has not moved past that byte is DEDUCED, log
entry 6). It is so for the opcode byte, for each operand byte and for the second byte of a CB instruction, also where
PREFIX CB is run by itself. With STRICT_ACCESS off an opcode fetch from an illegal region gives 0x00, which is NOP. -/
def Obligations.FetchFromIllegalRegion : Prop :=
  (∀ s : State, s.fatal = false → s.halted = false → (regionOf s.pc).legal = false →
      (s.params.strictAccess = true → step s = .next (stoppedAt s s.pc .read)) ∧
        (s.params.strictAccess = false → s.imePending = false →
          step s = .next { s with
            pc := s.pc + 1#16
            ticks := s.ticks + 4
            diag := s.diag ++ [.illegalAccess (regionOf s.pc) s.pc .read] })) ∧
    (∀ (s : State) (k : Nat), s.fatal = false → s.halted = false → k < lengthOf (readByte s s.pc) →
      (∀ j : Nat, j < k → accessStops s (s.pc + BitVec.ofNat 16 j) = false) →
      accessStops s (s.pc + BitVec.ofNat 16 k) = true →
      step s = .next (stoppedAt (fetched s k) (s.pc + BitVec.ofNat 16 k) .read)) ∧
    ∀ s : State, accessStops s s.pc = true → exec .prefixCb s = .next (stoppedAt s s.pc .read)

/-- The EI delay (10_state R29): a step that began with `ime_pending` set ends with IME set and the latch clear, unless
it ran DI; a step that began with it clear ends with it set exactly when it ran EI; an idle step changes neither. -/
def Obligations.EiTakesEffectAfterNextInstruction : Prop :=
  ∀ s t : State, s.fatal = false → step s = .next t → t.fatal = false →
    (s.halted = true → t.ime = s.ime ∧ t.imePending = s.imePending) ∧
      (s.halted = false → s.imePending = true →
        t.imePending = false ∧ (t.ime = true ↔ readByte s s.pc ≠ 0xF3#8)) ∧
      (s.halted = false → s.imePending = false →
        (t.imePending = true ↔ readByte s s.pc = 0xFB#8) ∧ (readByte s s.pc = 0xFB#8 → t.ime = s.ime))

/-- Who writes the latches (10_state R28, R30, R31, R38, 60_exceptions R316): `halted` is set by HALT and by an
illegal opcode under STRICT_OPCODE and never cleared, `stopped` is set by STOP and never cleared, IME changes only in
DI, RETI and at the end of the step after EI, and `fatal` is set under STRICT_ACCESS only. -/
def Obligations.LatchesChangeOnlyByTheirWriters : Prop :=
  ∀ s t : State, step s = .next t →
    (s.halted = true → t.halted = true) ∧ (s.stopped = true → t.stopped = true) ∧
      (s.halted = false → t.halted = true →
        readByte s s.pc = 0x76#8 ∨ readByte s s.pc ∈ illegalBytes ∧ s.params.strictOpcode = true) ∧
      (s.stopped = false → t.stopped = true → readByte s s.pc = 0x10#8) ∧
      (t.ime ≠ s.ime → readByte s s.pc = 0xF3#8 ∨ readByte s s.pc = 0xD9#8 ∨ s.imePending = true) ∧
      (t.fatal = true → s.params.strictAccess = true)

/-- Nothing a step does to the rest of the machine depends on IME, `ime_pending`, the stopped latch, the log or the
tick count (10_state R28, R31, R36, R37, 60_exceptions R315). That IME gates nothing is the spec's own decision D8 (log
entry 15), and that the stopped latch gates nothing is D9 (log entry 16). -/
def Obligations.NoInstructionReadsUnreadState : Prop :=
  ∀ s t : State, SameButUnread s t →
    (∃ s' t' : State, step s = .next s' ∧ step t = .next t' ∧ SameButUnread s' t') ∨
      (step s = .fault .fatalStop ∧ step t = .fault .fatalStop)

/-- Every step keeps the invariant: F's low nibble is zero (10_state R21), memory is canonical and lists stored bytes
only (log entry 2), the parameters are legal (00_scope R6), and `fatal` is set exactly when an illegal access has been
recorded under STRICT_ACCESS (10_state R38, 20_memory R54). -/
def Obligations.StepKeepsInvariant : Prop :=
  ∀ s t : State, s.Inv → step s = .next t → t.Inv

/-- The invariant holds after reset, for every legal setting of the parameters and every initial memory. -/
def Obligations.ResetMeetsInvariant : Prop :=
  (∀ (p : Params) (m : Memory), p.wf = true → m.wf = true → (State.init p m).Inv) ∧ State.reset.Inv

/-- `init()` (70_reset_and_hazards R340): the register values, the latches clear, the log empty, `ticks` 0, memory and
parameters as given. -/
def Obligations.ResetValues : Prop :=
  ∀ (p : Params) (m : Memory),
    value16 (State.init p m) .bc = 0x0013 ∧ value16 (State.init p m) .de = 0x00D8 ∧
      value16 (State.init p m) .hl = 0x014D ∧ (State.init p m).a = 0x01#8 ∧ (State.init p m).f = 0xB0#8 ∧
      (State.init p m).sp = 0xFFFE#16 ∧ (State.init p m).pc = 0x0100#16 ∧ (State.init p m).ime = false ∧
      (State.init p m).imePending = false ∧ (State.init p m).halted = false ∧ (State.init p m).stopped = false ∧
      (State.init p m).ticks = 0 ∧ (State.init p m).diag = [] ∧ (State.init p m).fatal = false ∧
      (State.init p m).mem = m ∧ (State.init p m).params = p

/-- The log and the tick count only grow: a step appends at most five records (60_exceptions R312), takes 4 to 24
T-cycles in units of 4 (10_state R37, 70_reset_and_hazards R346), and writes no parameter (10_state R39). The bound on
the T-cycles rests on the spec's own table, D18 (log entry 12). -/
def Obligations.LogAndTicksOnlyGrow : Prop :=
  ∀ s t : State, step s = .next t →
    (∃ records : List Diag, t.diag = s.diag ++ records ∧ records.length ≤ 5) ∧
      (∃ n : Nat, t.ticks = s.ticks + 4 * n ∧ 1 ≤ n ∧ n ≤ 6) ∧ t.params = s.params

/-- With CART_WRITE = ignore no step changes a byte of the cartridge window (20_memory R58, 95_test_vectors 1.1). -/
def Obligations.ReadOnlyCartridgeNeverChanges : Prop :=
  ∀ s t : State, s.params.cartWrite = .ignore → step s = .next t →
    ∀ x : Word, x.toNat ≤ 0x7FFF → readByte t x = readByte s x

/-- No instruction traps: every one answers a next state from every state, and so does every step outside the fault
state (60_exceptions R310, R318). -/
def Obligations.NoInstructionTraps : Prop :=
  (∀ (i : Instr) (s : State), ∃ t : State, exec i s = .next t) ∧
    ∀ s : State, s.fatal = false → ∃ t : State, step s = .next t

/-- The T-cycle table (70_reset_and_hazards R346): each instruction takes its count, the fetch of its bytes included,
whatever its operands and whether or not an access is illegal; an idle step takes 4. The row PREFIX CB has no count of
its own (47_misc R258). -/
def Obligations.InstructionsTakeTheirTCycles : Prop :=
  (∀ (i : Instr) (s : State), s.params.strictAccess = false → i ≠ .prefixCb → ∃ t : State, exec i s = .next t ∧
      t.ticks + 4 * (encode i).length = s.ticks + tCycles (taken s i) i) ∧
    ∀ s : State, s.fatal = false → s.halted = true → ∃ t : State, step s = .next t ∧ t.ticks = s.ticks + 4

/-- An instruction that 10_state R22 does not list as writing a flag leaves that flag. -/
def Obligations.FlagsChangeOnlyWhereListed : Prop :=
  ∀ (i : Instr) (s t : State), i ≠ .prefixCb → exec i s = .next t →
    (writesZ i = false → flagBit t 7 = flagBit s 7) ∧ (writesN i = false → flagBit t 6 = flagBit s 6) ∧
      (writesH i = false → flagBit t 5 = flagBit s 5) ∧ (writesC i = false → flagBit t 4 = flagBit s 4)

/-! The bus. -/

/-- What a bus read returns, by address (20_memory R51, R52, R54 to R57), seen through `LD A,(a16)`: 0x00 with a record
in the five illegal regions, 0xFF at an unmapped I/O offset, the stored byte elsewhere. -/
def Obligations.BusReadsByRegion : Prop :=
  ∀ (s : State) (addr : Word), accessStops s addr = false → ∃ t : State, exec (.ldAA16 addr) s = .next t ∧
    t.a =
      (if addr.toNat ≤ 0x7FFF then s.mem.get addr.toNat
      else if addr.toNat < 0xC000 then 0x00#8
      else if addr.toNat ≤ 0xDFFF then s.mem.get addr.toNat
      else if addr.toNat < 0xFF00 then 0x00#8
      else if addr.toNat ≤ 0xFF7F then
        (if addr.toNat - 0xFF00 ∈ s.params.ioUnmapped then 0xFF#8 else s.mem.get addr.toNat)
      else s.mem.get addr.toNat) ∧
    t.diag = s.diag ++
      (if addr.toNat ≤ 0x7FFF then []
      else if addr.toNat ≤ 0x9FFF then [.illegalAccess .vram addr .read]
      else if addr.toNat ≤ 0xBFFF then [.illegalAccess .externalRam addr .read]
      else if addr.toNat ≤ 0xDFFF then []
      else if addr.toNat ≤ 0xFDFF then [.illegalAccess .echoRam addr .read]
      else if addr.toNat ≤ 0xFE9F then [.illegalAccess .oam addr .read]
      else if addr.toNat ≤ 0xFEFF then [.illegalAccess .unusable addr .read]
      else []) ∧
    t.ticks = s.ticks + 4 ∧ ChangesOnly [.reg .a, .diag, .ticks] s t

/-- What a bus write does, by address (20_memory R51, R53, R54, R58), seen through `LD (a16),A`: dropped with a record
in the five illegal regions, dropped without one in the cartridge window under CART_WRITE = ignore, one byte stored
elsewhere. -/
def Obligations.BusWritesByRegion : Prop :=
  ∀ (s : State) (addr : Word), s.mem.wf = true → accessStops s addr = false →
    ∃ t : State, exec (.ldA16A addr) s = .next t ∧
      (∀ x : Nat, t.mem.get x =
        if x ≠ addr.toNat then s.mem.get x
        else if addr.toNat ≤ 0x7FFF then (if s.params.cartWrite = .store then s.a else s.mem.get x)
        else if addr.toNat < 0xC000 then s.mem.get x
        else if addr.toNat ≤ 0xDFFF then s.a
        else if addr.toNat < 0xFF00 then s.mem.get x
        else s.a) ∧
      t.diag = s.diag ++
        (if addr.toNat ≤ 0x7FFF then []
        else if addr.toNat ≤ 0x9FFF then [.illegalAccess .vram addr .write]
        else if addr.toNat ≤ 0xBFFF then [.illegalAccess .externalRam addr .write]
        else if addr.toNat ≤ 0xDFFF then []
        else if addr.toNat ≤ 0xFDFF then [.illegalAccess .echoRam addr .write]
        else if addr.toNat ≤ 0xFE9F then [.illegalAccess .oam addr .write]
        else if addr.toNat ≤ 0xFEFF then [.illegalAccess .unusable addr .write]
        else []) ∧
      t.ticks = s.ticks + 4 ∧ ChangesOnly [.memory, .diag, .ticks] s t

/-- Reading back a written byte (20_memory R63): `LD (a16),A` and then `LD A,(a16)` at the same address give the byte
back in WRAM, HRAM, IE, a mapped I/O offset and a stored cartridge, 0xFF at an unmapped I/O offset, the old byte in a
read-only cartridge, and 0x00 in an illegal region; and one load twice gives the same byte twice. -/
def Obligations.WrittenByteReadsBack : Prop :=
  ∀ (s : State) (addr : Word), s.mem.wf = true → accessStops s addr = false →
    (∃ t u : State, exec (.ldA16A addr) s = .next t ∧ exec (.ldAA16 addr) t = .next u ∧
      u.a =
        match regionOf addr with
        | .wram | .hram | .ie => s.a
        | .io => if addr.toNat - 0xFF00 ∈ s.params.ioUnmapped then 0xFF#8 else s.a
        | .cartridge => if s.params.cartWrite = .store then s.a else s.mem.get addr.toNat
        | .vram | .externalRam | .echoRam | .oam | .unusable => 0x00#8) ∧
      ∃ t u : State, exec (.ldAA16 addr) s = .next t ∧ exec (.ldAA16 addr) t = .next u ∧ u.a = t.a

/-- Under STRICT_ACCESS an instruction whose first data access is illegal ends at that access with the record and
`fatal`, and nothing it would have done after it happens (20_memory R54; DEDUCED, log entry 6): the forms on (HL), (BC),
(DE) and (a16), every POP and return, and every PUSH, CALL and RST, whose SP has already moved by one (45_stack R220;
DEDUCED, log entry 23). -/
def Obligations.StrictAccessEndsTheInstruction : Prop :=
  (∀ (i : Instr) (s : State), readsHlFirst i = true → accessStops s s.hl = true →
      exec i s = .next (stoppedAt s s.hl .read)) ∧
    (∀ (i : Instr) (s : State), writesHlFirst i = true → accessStops s s.hl = true →
      exec i s = .next (stoppedAt s s.hl .write)) ∧
    (∀ (s : State) (addr : Word), accessStops s addr = true →
      exec (.ldAA16 addr) s = .next (stoppedAt s addr .read) ∧
      exec (.ldA16A addr) s = .next (stoppedAt s addr .write) ∧
      exec (.ldA16Sp addr) s = .next (stoppedAt s addr .write)) ∧
    (∀ s : State, accessStops s s.bc = true → exec .ldABc s = .next (stoppedAt s s.bc .read) ∧
      exec .ldBcA s = .next (stoppedAt s s.bc .write)) ∧
    (∀ s : State, accessStops s s.de = true → exec .ldADe s = .next (stoppedAt s s.de .read) ∧
      exec .ldDeA s = .next (stoppedAt s s.de .write)) ∧
    (∀ (i : Instr) (s : State), popsIn s i = true → accessStops s s.sp = true →
      exec i s = .next (stoppedAt { s with ticks := s.ticks + cyclesBeforePop i } s.sp .read)) ∧
    (∀ (i : Instr) (s : State), pushesIn s i = true → accessStops s (s.sp - 1#16) = true →
      exec i s =
        .next (stoppedAt { s with sp := s.sp - 1#16, ticks := s.ticks + 4 } (s.sp - 1#16) .write))

/-- Under STRICT_ACCESS an instruction that moves a word and whose second byte alone is illegal ends at that byte
(20_memory R54; DEDUCED, log entries 6 and 23). A PUSH, CALL or RST has stored the high byte and moved SP by two, a POP
or return has moved SP by one and written neither its pair nor PC, and `LD (a16),SP` has stored the low byte. -/
def Obligations.StrictAccessEndsAtTheSecondByte : Prop :=
  (∀ (i : Instr) (s : State), pushesIn s i = true → accessStops s (s.sp - 1#16) = false →
      accessStops s (s.sp - 2#16) = true → ∃ t : State,
      t.sp = s.sp - 2#16 ∧ t.ticks = s.ticks + 8 ∧ Stored s t (s.sp - 1#16) (highByte (pushedWord s i)) ∧
      ChangesOnly [.sp, .memory, .ticks] s t ∧ exec i s = .next (stoppedAt t (s.sp - 2#16) .write)) ∧
    (∀ (i : Instr) (s : State), popsIn s i = true → accessStops s s.sp = false →
      accessStops s (s.sp + 1#16) = true →
      exec i s = .next (stoppedAt { s with sp := s.sp + 1#16, ticks := s.ticks + 4 + cyclesBeforePop i } (s.sp + 1#16)
        .read)) ∧
    (∀ (s : State) (addr : Word), accessStops s addr = false → accessStops s (addr + 1#16) = true → ∃ t : State,
      t.ticks = s.ticks + 4 ∧ Stored s t addr (lowByte s.sp) ∧ ChangesOnly [.memory, .ticks] s t ∧
      exec (.ldA16Sp addr) s = .next (stoppedAt t (addr + 1#16) .write))

/-- A pair is a view of its two registers, the first-named one the high byte (10_state R23). -/
def Obligations.PairsAreViewsOfRegisters : Prop :=
  ∀ (s : State) (v : Word),
    s.af.toNat = s.a.toNat * 256 + s.f.toNat ∧ s.bc.toNat = value16 s .bc ∧ s.de.toNat = value16 s .de ∧
      s.hl.toNat = value16 s .hl ∧
      (∀ rr : Reg16, (s.getReg16 rr).toNat = value16 s rr ∧ value16 (s.setReg16 rr v) rr = v.toNat ∧
        ChangesOnly (parts16 rr) s (s.setReg16 rr v))

/-! Loads. -/

/-- `LD r,r'`, `LD r,n8`, `LD rr,n16`, `LD SP,HL` (40_load R120, R121, R139, R141). -/
def Obligations.RegisterLoadsCopy : Prop :=
  (∀ (s : State) (r r' : Reg8), ∃ t : State, Runs (.ldRR r r') [0x40#8 + 8#8 * slot r + slot r'] 4 s t ∧
      t.getReg8 r = s.getReg8 r' ∧ ChangesOnly [.reg r] s t) ∧
    (∀ (s : State) (r : Reg8) (n : Byte), ∃ t : State, Runs (.ldRN8 r n) [0x06#8 + 8#8 * slot r, n] 8 s t ∧
      t.getReg8 r = n ∧ ChangesOnly [.reg r] s t) ∧
    (∀ (s : State) (rr : Reg16) (n : Word), ∃ t : State,
      Runs (.ldRrN16 rr n) [0x01#8 + 16#8 * rpIndex rr, lowByte n, highByte n] 12 s t ∧
      value16 t rr = n.toNat ∧ ChangesOnly (parts16 rr) s t) ∧
    (∀ s : State, ∃ t : State, Runs .ldSpHl [0xF9#8] 8 s t ∧ t.sp.toNat = value16 s .hl ∧
      ChangesOnly [.sp, .ticks] s t)

/-- The loads from memory other than `LDH A,(C)` (40_load R122, R125, R126, R129, R131, R136, R138). -/
def Obligations.LoadsReadMemory : Prop :=
  (∀ r : Reg8, LoadsByte (.ldRHl r) [0x46#8 + 8#8 * slot r] 8 r State.hl) ∧
    LoadsByte .ldABc [0x0A#8] 8 .a State.bc ∧ LoadsByte .ldADe [0x1A#8] 8 .a State.de ∧
    (∀ addr : Word, LoadsByte (.ldAA16 addr) [0xFA#8, lowByte addr, highByte addr] 16 .a fun _ => addr) ∧
    (∀ n : Byte, LoadsByte (.ldhAA8 n) [0xF0#8, n] 12 .a fun _ => BitVec.ofNat 16 (0xFF00 + n.toNat)) ∧
    LoadsAMovingHl .ldAHlInc [0x2A#8] 8 1 ∧ LoadsAMovingHl .ldAHlDec [0x3A#8] 8 65535

/-- `LDH A,(C)` (40_load section 1; the form is the spec's own addition under D12). -/
def Obligations.HighPageLoadThroughC : Prop :=
  LoadsByte .ldhAC [0xF2#8] 8 .a fun s => BitVec.ofNat 16 (0xFF00 + s.c.toNat)

/-- The stores to memory (40_load R123, R124, R127, R128, R130, R132, R134, R135, R137). -/
def Obligations.StoresWriteMemory : Prop :=
  (∀ r : Reg8, StoresByte (.ldHlR r) [0x70#8 + slot r] 8 State.hl fun s => s.getReg8 r) ∧
    (∀ n : Byte, StoresByte (.ldHlN8 n) [0x36#8, n] 12 State.hl fun _ => n) ∧
    StoresByte .ldBcA [0x02#8] 8 State.bc State.a ∧ StoresByte .ldDeA [0x12#8] 8 State.de State.a ∧
    (∀ addr : Word, StoresByte (.ldA16A addr) [0xEA#8, lowByte addr, highByte addr] 16 (fun _ => addr) State.a) ∧
    (∀ n : Byte, StoresByte (.ldhA8A n) [0xE0#8, n] 12 (fun _ => BitVec.ofNat 16 (0xFF00 + n.toNat)) State.a) ∧
    StoresByte .ldhCA [0xE2#8] 8 (fun s => BitVec.ofNat 16 (0xFF00 + s.c.toNat)) State.a ∧
    StoresAMovingHl .ldHlIncA [0x22#8] 8 1 ∧ StoresAMovingHl .ldHlDecA [0x32#8] 8 65535

/-- `LD (a16),SP` stores SP low byte first (40_load section 2; the order of the two writes is the spec's own, D12). -/
def Obligations.StoreOfSpIsLittleEndian : Prop :=
  ∀ (s : State) (addr : Word), accessStops s addr = false → accessStops s (addr + 1#16) = false →
    ∃ t : State, Runs (.ldA16Sp addr) [0x08#8, lowByte addr, highByte addr] 20 s t ∧
      StoredTwo s t addr (lowByte s.sp) (addr + 1#16) (highByte s.sp) ∧
      t.diag = s.diag ++ accessRecord addr .write ++ accessRecord (addr + 1#16) .write ∧
      ChangesOnly [.memory, .diag, .ticks] s t

/-- `LD HL,SP+e8` and `ADD SP,e8`: a signed offset for the value, the unsigned low-byte addition for H and C, Z = N = 0
(40_load R142, 42_alu16 R193, R194). -/
def Obligations.SpOffsetFlagsComeFromLowByte : Prop :=
  (∀ (s : State) (n : Byte), ∃ t : State, Runs (.ldHlSpE8 n) [0xF8#8, n] 12 s t ∧
      value16 t .hl = plusOffset s.sp.toNat n ∧
      HasFlags t false false (decide (s.sp.toNat % 16 + n.toNat % 16 > 0x0F))
        (decide (s.sp.toNat % 256 + n.toNat > 0xFF)) ∧
      ChangesOnly [.reg .h, .reg .l, .flags, .ticks] s t) ∧
    (∀ (s : State) (n : Byte), ∃ t : State, Runs (.addSpE8 n) [0xE8#8, n] 16 s t ∧
      t.sp.toNat = plusOffset s.sp.toNat n ∧
      HasFlags t false false (decide (s.sp.toNat % 16 + n.toNat % 16 > 0x0F))
        (decide (s.sp.toNat % 256 + n.toNat > 0xFF)) ∧
      ChangesOnly [.sp, .flags, .ticks] s t)

/-! 8-bit arithmetic and logic. -/

/-- `ADD` (41_alu8 R150, R153, R154, R155). -/
def Obligations.AddWritesSumAndFlags : Prop :=
  AluForms .addAR .addAHl .addAN8 0x80#8 0xC6#8 [.reg .a, .flags] (AddPost 0)

/-- `ADC`: the carry-in takes part in the sum and in both carries (41_alu8 R156, R157, R158). -/
def Obligations.AdcWritesSumAndFlags : Prop :=
  AluForms .adcAR .adcAHl .adcAN8 0x88#8 0xCE#8 [.reg .a, .flags] fun s v t => AddPost (carry s) s v t

/-- `SUB` (41_alu8 R151, R159, R160, R161). -/
def Obligations.SubWritesDifferenceAndFlags : Prop :=
  AluForms .subAR .subAHl .subAN8 0x90#8 0xD6#8 [.reg .a, .flags] (SubPost 0)

/-- `SBC` (41_alu8 R162, R163, R164). -/
def Obligations.SbcWritesDifferenceAndFlags : Prop :=
  AluForms .sbcAR .sbcAHl .sbcAN8 0x98#8 0xDE#8 [.reg .a, .flags] fun s v t => SubPost (carry s) s v t

/-- `AND`, `XOR`, `OR`: bitwise; Z from the result, N = C = 0, H = 1 for AND and 0 for the others (41_alu8 sections 1,
6, 7, 8; the flags are the spec's own, D12). -/
def Obligations.LogicOpsWriteBitsAndFlags : Prop :=
  AluForms .andAR .andAHl .andAN8 0xA0#8 0xE6#8 [.reg .a, .flags] (fun s v t =>
      (∀ k : Nat, k < 8 → t.a.getLsbD k = (s.a.getLsbD k && v.getLsbD k)) ∧
        HasFlags t (decide (t.a = 0x00#8)) false true false) ∧
    AluForms .xorAR .xorAHl .xorAN8 0xA8#8 0xEE#8 [.reg .a, .flags] (fun s v t =>
      (∀ k : Nat, k < 8 → t.a.getLsbD k = (s.a.getLsbD k != v.getLsbD k)) ∧
        HasFlags t (decide (t.a = 0x00#8)) false false false) ∧
    AluForms .orAR .orAHl .orAN8 0xB0#8 0xF6#8 [.reg .a, .flags] (fun s v t =>
      (∀ k : Nat, k < 8 → t.a.getLsbD k = (s.a.getLsbD k || v.getLsbD k)) ∧
        HasFlags t (decide (t.a = 0x00#8)) false false false)

/-- `CP`: the flags of SUB, and A keeps its value (41_alu8 section 9; that A is not written is the spec's own, D12). -/
def Obligations.CpSetsFlagsAndKeepsA : Prop :=
  AluForms .cpAR .cpAHl .cpAN8 0xB8#8 0xFE#8 [.flags] (SubFlags 0)

/-! 16-bit arithmetic, increment and decrement, rotates on A. -/

/-- `ADD HL,rr`: H from bit 11, C from bit 15 (the spec's own, D12), N = 0, Z kept (42_alu16). -/
def Obligations.AddHlKeepsZ : Prop :=
  ∀ (s : State) (rr : Reg16), ∃ t : State, Runs (.addHlRr rr) [0x09#8 + 16#8 * rpIndex rr] 8 s t ∧
    value16 t .hl = (value16 s .hl + value16 s rr) % 65536 ∧
    HasFlags t (decide (flagBit s 7 = 1)) false (decide (value16 s .hl % 0x1000 + value16 s rr % 0x1000 > 0x0FFF))
      (decide (value16 s .hl + value16 s rr > 0xFFFF)) ∧
    ChangesOnly [.reg .h, .reg .l, .flags, .ticks] s t

/-- `INC rr` and `DEC rr` wrap modulo 65536 and write no flag (42_alu16; the flags are the spec's own, D12). -/
def Obligations.IncDec16WriteNoFlag : Prop :=
  (∀ (s : State) (rr : Reg16), ∃ t : State, Runs (.incRr rr) [0x03#8 + 16#8 * rpIndex rr] 8 s t ∧
      value16 t rr = (value16 s rr + 1) % 65536 ∧ ChangesOnly (.ticks :: parts16 rr) s t) ∧
    (∀ (s : State) (rr : Reg16), ∃ t : State, Runs (.decRr rr) [0x0B#8 + 16#8 * rpIndex rr] 8 s t ∧
      value16 t rr = (value16 s rr + 65535) % 65536 ∧ ChangesOnly (.ticks :: parts16 rr) s t)

/-- `INC` and `DEC` of a register and of (HL): Z from the result, N by the direction, H on a nibble overflow or borrow,
C kept (43_incdec8 R200 to R203). -/
def Obligations.IncDec8KeepC : Prop :=
  RewriteForms .incR .incHl (fun r => [0x04#8 + 8#8 * slot r]) [0x34#8] 4 12 [.flags]
      (fun _ v => (v.toNat + 1) % 256)
      (fun s v t => HasFlags t (decide ((v.toNat + 1) % 256 = 0)) false (decide (v.toNat % 16 = 0x0F))
        (decide (carry s = 1))) ∧
    RewriteForms .decR .decHl (fun r => [0x05#8 + 8#8 * slot r]) [0x35#8] 4 12 [.flags]
      (fun _ v => (v.toNat + 255) % 256)
      (fun s v t => HasFlags t (decide ((v.toNat + 255) % 256 = 0)) true (decide (v.toNat % 16 = 0x00))
        (decide (carry s = 1)))

/-- `RLCA`, `RRCA`, `RLA`, `RRA`: Z forced to 0, N = H = 0, C the bit that left (44_rotate_a;
directions, N, H and C are the spec's own, D12). -/
def Obligations.RotatesOnAClearZ : Prop :=
  RotatesA .rlca 0x07#8 (fun v _ => (v * 2 + v / 128) % 256) (fun v _ => v / 128) ∧
    RotatesA .rrca 0x0F#8 (fun v _ => v / 2 + v % 2 * 128) (fun v _ => v % 2) ∧
    RotatesA .rla 0x17#8 (fun v c => (v * 2 + c) % 256) (fun v _ => v / 128) ∧
    RotatesA .rra 0x1F#8 (fun v c => v / 2 + c * 128) (fun v _ => v % 2)

/-! The stack and control transfer. -/

/-- `PUSH rr` and `PUSH AF` (45_stack R220, R222, R223). -/
def Obligations.PushWritesTwoBytes : Prop :=
  (∀ rr : StackPair, Pushes (.pushRr rr) [0xC5#8 + 16#8 * rp2Index rr] fun s => BitVec.ofNat 16 (valuePair s rr)) ∧
    Pushes .pushAf [0xF5#8] fun s => BitVec.ofNat 16 (s.a.toNat * 256 + s.f.toNat)

/-- `POP rr` and `POP AF`, which forces the low nibble of F to zero (45_stack R221, R224, R225). -/
def Obligations.PopReadsTwoBytes : Prop :=
  (∀ (s : State) (rr : StackPair), PopGoes s → ∃ t : State, Runs (.popRr rr) [0xC1#8 + 16#8 * rp2Index rr] 12 s t ∧
      Popped s t ∧ valuePair t rr = topOfStack s ∧ ChangesOnly (.sp :: .diag :: .ticks :: partsPair rr) s t) ∧
    (∀ s : State, PopGoes s → ∃ t : State, Runs .popAf [0xF1#8] 12 s t ∧ Popped s t ∧
      t.a.toNat = topOfStack s / 256 ∧ t.f.toNat = topOfStack s % 256 / 16 * 16 ∧
      ChangesOnly [.reg .a, .flags, .sp, .diag, .ticks] s t)

/-- PUSH and then POP, of the same pair or of another, moves the pair and restores SP, where both stack bytes read
back (45_stack R221, R224, R225). -/
def Obligations.PopAfterPushRestores : Prop :=
  ∀ s : State, s.mem.wf = true → readsBack s (s.sp - 1#16) = true → readsBack s (s.sp - 2#16) = true →
    (∀ rr rr' : StackPair, ∃ t u : State, exec (.pushRr rr) s = .next t ∧ exec (.popRr rr') t = .next u ∧
      valuePair u rr' = valuePair s rr ∧ u.sp = s.sp ∧ ChangesOnly (.memory :: .ticks :: partsPair rr') s u) ∧
      (s.flagNibbleClear = true → ∃ t u : State, exec .pushAf s = .next t ∧ exec .popAf t = .next u ∧
        ChangesOnly [.memory, .ticks] s u)

/-- `JR`, `JR cc`, `JP`, `JP cc`, `JP HL` (46_control R231 to R235): the target, PC left past the instruction where the
condition fails, and no flag written. -/
def Obligations.JumpsSetPc : Prop :=
  (∀ (s : State) (n : Byte), JumpsFrom (.jrE8 n) [0x18#8, n] 12 (plusOffset s.pc.toNat n) s) ∧
    (∀ (s : State) (cc : Cond) (n : Byte), if holds s cc = true
      then JumpsFrom (.jrCcE8 cc n) [0x20#8 + 8#8 * ccIndex cc, n] 12 (plusOffset s.pc.toNat n) s
      else PassesFrom (.jrCcE8 cc n) [0x20#8 + 8#8 * ccIndex cc, n] 8 s) ∧
    (∀ (s : State) (addr : Word), JumpsFrom (.jpA16 addr) [0xC3#8, lowByte addr, highByte addr] 16 addr.toNat s) ∧
    (∀ (s : State) (cc : Cond) (addr : Word), if holds s cc = true
      then JumpsFrom (.jpCcA16 cc addr) [0xC2#8 + 8#8 * ccIndex cc, lowByte addr, highByte addr] 16 addr.toNat s
      else PassesFrom (.jpCcA16 cc addr) [0xC2#8 + 8#8 * ccIndex cc, lowByte addr, highByte addr] 12 s) ∧
    (∀ s : State, JumpsFrom .jpHl [0xE9#8] 4 (value16 s .hl) s)

/-- `CALL`, `CALL cc`, `RST` (46_control R236, R237, R247). -/
def Obligations.CallsPushReturnAddress : Prop :=
  (∀ (s : State) (addr : Word), CallsFrom (.callA16 addr) [0xCD#8, lowByte addr, highByte addr] 24 addr s) ∧
    (∀ (s : State) (cc : Cond) (addr : Word), if holds s cc = true
      then CallsFrom (.callCcA16 cc addr) [0xC4#8 + 8#8 * ccIndex cc, lowByte addr, highByte addr] 24 addr s
      else PassesFrom (.callCcA16 cc addr) [0xC4#8 + 8#8 * ccIndex cc, lowByte addr, highByte addr] 12 s) ∧
    (∀ (s : State) (k : Nat), k < 8 →
      CallsFrom (.rstVec (BitVec.ofNat 8 (8 * k))) [BitVec.ofNat 8 (0xC7 + 8 * k)] 16 (BitVec.ofNat 16 (8 * k)) s)

/-- `RET` and `RET cc` (46_control R238, R239). -/
def Obligations.ReturnsPopPc : Prop :=
  (∀ s : State, ReturnsFrom .ret [0xC9#8] 16 [] s) ∧
    (∀ (s : State) (cc : Cond), if holds s cc = true
      then ReturnsFrom (.retCc cc) [0xC0#8 + 8#8 * ccIndex cc] 20 [] s
      else PassesFrom (.retCc cc) [0xC0#8 + 8#8 * ccIndex cc] 8 s)

/-- `RETI` returns and sets IME at once, `ime_pending` kept (46_control; the spec's own decision, D17). -/
def Obligations.RetiReturnsAndSetsIme : Prop := ∀ s : State, ReturnsFrom .reti [0xD9#8] 16 [.ime] s

/-- CALL and then RET come back to the address after the CALL with SP restored, where both stack bytes read back
(46_control R236, R238, 95_test_vectors 1.1). -/
def Obligations.RetAfterCallComesBack : Prop :=
  ∀ (s : State) (addr : Word), s.mem.wf = true → readsBack s (s.sp - 1#16) = true → readsBack s (s.sp - 2#16) = true →
    ∃ t u : State, exec (.callA16 addr) s = .next t ∧ t.pc = addr ∧ exec .ret t = .next u ∧
      ChangesOnly [.memory, .ticks] s u

/-! Miscellaneous. -/

/-- `NOP`, `HALT`, `STOP`, `DI`, `EI` (47_misc; the one-byte STOP and the `ime_pending` latch are the spec's own, D9,
D10). -/
def Obligations.LatchInstructions : Prop :=
  ∀ s : State,
    (∃ t : State, Runs .nop [0x00#8] 4 s t ∧ ChangesOnly [] s t) ∧
      (∃ t : State, Runs .halt [0x76#8] 4 s t ∧ t.halted = true ∧ ChangesOnly [.halted] s t) ∧
      (∃ t : State, Runs .stop [0x10#8] 4 s t ∧ t.stopped = true ∧ ChangesOnly [.stopped] s t) ∧
      (∃ t : State, Runs .di [0xF3#8] 4 s t ∧ t.ime = false ∧ t.imePending = false ∧
        ChangesOnly [.ime, .imePending] s t) ∧
      (∃ t : State, Runs .ei [0xFB#8] 4 s t ∧ t.imePending = true ∧ ChangesOnly [.imePending] s t)

/-- `SCF`, `CCF`, `CPL` (47_misc; the flags are the spec's own, D12). -/
def Obligations.FlagInstructions : Prop :=
  ∀ s : State,
    (∃ t : State, Runs .scf [0x37#8] 4 s t ∧ HasFlags t (decide (flagBit s 7 = 1)) false false true ∧
        ChangesOnly [.flags] s t) ∧
      (∃ t : State, Runs .ccf [0x3F#8] 4 s t ∧
        HasFlags t (decide (flagBit s 7 = 1)) false false (decide (carry s = 0)) ∧ ChangesOnly [.flags] s t) ∧
      (∃ t : State, Runs .cpl [0x2F#8] 4 s t ∧ t.a.toNat = 255 - s.a.toNat ∧
        HasFlags t (decide (flagBit s 7 = 1)) true true (decide (carry s = 1)) ∧ ChangesOnly [.reg .a, .flags] s t)

/-- `DAA` for every value of A and of the flags N, H and C (47_misc; the algorithm is the spec's own, D12). -/
def Obligations.DaaAdjustsA : Prop :=
  ∀ s : State, ∃ t : State, Runs .daa [0x27#8] 4 s t ∧ ChangesOnly [.reg .a, .flags] s t ∧
    (flagBit s 6 = 0 →
      t.a.toNat = (s.a.toNat + (if flagBit s 5 = 1 ∨ s.a.toNat % 16 > 0x09 then 0x06 else 0) +
        (if carry s = 1 ∨ s.a.toNat > 0x99 then 0x60 else 0)) % 256 ∧
      HasFlags t (decide (t.a.toNat = 0)) false false (decide (carry s = 1 ∨ s.a.toNat > 0x99))) ∧
    (flagBit s 6 = 1 →
      t.a.toNat = (s.a.toNat + 256 - (if flagBit s 5 = 1 then 0x06 else 0) - (if carry s = 1 then 0x60 else 0)) % 256 ∧
      HasFlags t (decide (t.a.toNat = 0)) true false (decide (carry s = 1)))

/-- DAA after an addition or a subtraction of two packed-BCD bytes gives the decimal sum or difference modulo 100, with
C the decimal carry or borrow (47_misc). -/
def Obligations.DaaMakesDecimalArithmetic : Prop :=
  ∀ (s : State) (x y : Nat), x < 100 → y < 100 → s.a = bcd x →
    (∃ t u : State, exec (.addAN8 (bcd y)) s = .next t ∧ exec .daa t = .next u ∧ u.a = bcd ((x + y) % 100) ∧
      (carry u = 1 ↔ x + y ≥ 100)) ∧
      (∃ t u : State, exec (.subAN8 (bcd y)) s = .next t ∧ exec .daa t = .next u ∧ u.a = bcd ((x + 100 - y) % 100) ∧
        (carry u = 1 ↔ x < y))

/-- The illegal opcodes: always the record with the opcode and the address it was fetched from; `halted` under
STRICT_OPCODE and a NOP otherwise (30_encoding section 6, 60_exceptions section 1; the eleven bytes and the parameter
are the spec's own, D4, D12). -/
def Obligations.IllegalOpcodesAreLogged : Prop :=
  ∀ row : Instr × Byte, row ∈ illegalRows → ∀ s : State, ∃ t : State, Runs row.1 [row.2] 4 s t ∧
    t.diag = s.diag ++ [.illegalOpcode row.2 (s.pc - 1#16)] ∧
    (s.params.strictOpcode = true → t.halted = true) ∧ (s.params.strictOpcode = false → t.halted = s.halted) ∧
    ChangesOnly [.diag, .halted] s t

/-- `PREFIX CB` fetches one byte and runs the instruction that the CB table gives for it (47_misc R258). -/
def Obligations.PrefixRunsTheCbInstruction : Prop :=
  ∀ s : State, accessStops s s.pc = false → ∃ (i : Instr) (t : State),
    decode [0xCB#8, readByte s s.pc] = .instr i [] ∧ exec i (fetched s 1) = .next t ∧ exec .prefixCb s = .next t

/-! CB instructions. -/

/-- `RLC`, `RRC`, and `RL`, `RR` through the carry (48_cb_prefix; directions, N, H and C are the spec's own, D12). -/
def Obligations.CbRotatesMoveOneBit : Prop :=
  ShiftForms .rlcR .rlcHl 0x00#8 (fun v _ => (v * 2 + v / 128) % 256) (fun v _ => v / 128) ∧
    ShiftForms .rrcR .rrcHl 0x08#8 (fun v _ => v / 2 + v % 2 * 128) (fun v _ => v % 2) ∧
    ShiftForms .rlR .rlHl 0x10#8 (fun v c => (v * 2 + c) % 256) (fun v _ => v / 128) ∧
    ShiftForms .rrR .rrHl 0x18#8 (fun v c => v / 2 + c * 128) (fun v _ => v % 2)

/-- `SLA`, `SRA`, `SRL`, and `SWAP`, which exchanges the nibbles and clears C (48_cb_prefix; directions, N, H and C are
the spec's own, D12). -/
def Obligations.CbShiftsAndSwap : Prop :=
  ShiftForms .slaR .slaHl 0x20#8 (fun v _ => v * 2 % 256) (fun v _ => v / 128) ∧
    ShiftForms .sraR .sraHl 0x28#8 (fun v _ => v / 2 + v / 128 * 128) (fun v _ => v % 2) ∧
    ShiftForms .srlR .srlHl 0x38#8 (fun v _ => v / 2) (fun v _ => v % 2) ∧
    ShiftForms .swapR .swapHl 0x30#8 (fun v _ => v % 16 * 16 + v / 16) (fun _ _ => 0)

/-- `BIT b,r` and `BIT b,(HL)`: Z the complement of the bit, N = 0, H = 1, C kept, nothing written back (48_cb_prefix
R287, R288). -/
def Obligations.BitTestsOneBit : Prop :=
  (∀ (s : State) (bit : Nat) (r : Reg8), bit < 8 → ∃ t : State,
      Runs (.bitR bit r) [0xCB#8, BitVec.ofNat 8 (0x40 + 8 * bit) + slot r] 8 s t ∧
      HasFlags t (decide ((s.getReg8 r).toNat / 2 ^ bit % 2 = 0)) false true (decide (carry s = 1)) ∧
      ChangesOnly [.flags] s t) ∧
    (∀ (s : State) (bit : Nat), bit < 8 → accessStops s s.hl = false → ∃ t : State,
      Runs (.bitHl bit) [0xCB#8, BitVec.ofNat 8 (0x46 + 8 * bit)] 12 s t ∧
      HasFlags t (decide ((readByte s s.hl).toNat / 2 ^ bit % 2 = 0)) false true (decide (carry s = 1)) ∧
      ReadsZeroInGap s s.hl ∧ t.diag = s.diag ++ accessRecord s.hl .read ∧ ChangesOnly [.flags, .ticks, .diag] s t)

/-- `RES` and `SET`, on a register and on (HL), which is always written back; no flag (48_cb_prefix R289 to R292). -/
def Obligations.ResAndSetChangeOneBit : Prop :=
  ∀ bit : Nat, bit < 8 →
    RewriteForms (.resR bit) (.resHl bit) (fun r => [0xCB#8, BitVec.ofNat 8 (0x80 + 8 * bit) + slot r])
        [0xCB#8, BitVec.ofNat 8 (0x86 + 8 * bit)] 8 16 []
        (fun _ v => v.toNat - v.toNat / 2 ^ bit % 2 * 2 ^ bit) (fun _ _ _ => True) ∧
      RewriteForms (.setR bit) (.setHl bit) (fun r => [0xCB#8, BitVec.ofNat 8 (0xC0 + 8 * bit) + slot r])
        [0xCB#8, BitVec.ofNat 8 (0xC6 + 8 * bit)] 8 16 []
        (fun _ v => v.toNat + (1 - v.toNat / 2 ^ bit % 2) * 2 ^ bit) (fun _ _ _ => True)
end

