-- ==== Sys2Proof/Laws/Memory.lean ====
section
/-! SUPPORT. The laws of memory cells: read after write, and that a write keeps the canonical form. -/

namespace Sys2Proof.Machine

/-- A cell below every listed address reads as the unlisted byte. -/
theorem Memory.get_of_lt {m : Memory} {lo addr : Nat} (hm : Memory.wfFrom lo m = true) (h : addr < lo) :
    m.get addr = Config.unlistedByte := by
  induction m generalizing lo with
  | nil => rfl
  | cons cell rest ih =>
    obtain ⟨k, v⟩ := cell
    simp only [Memory.wfFrom, Bool.and_eq_true, decide_eq_true_eq] at hm
    rw [Memory.get, if_neg (by omega)]
    exact ih hm.2 (by omega)

/-- A canonical memory stays canonical from a lower bound. -/
theorem Memory.wfFrom_mono {m : Memory} {lo lo' : Nat} (hm : Memory.wfFrom lo m = true) (h : lo' ≤ lo) :
    Memory.wfFrom lo' m = true := by
  cases m with
  | nil => rfl
  | cons cell rest =>
    obtain ⟨k, v⟩ := cell
    simp only [Memory.wfFrom, Bool.and_eq_true, decide_eq_true_eq] at hm ⊢
    exact ⟨⟨⟨by omega, hm.1.1.2⟩, hm.1.2⟩, hm.2⟩

/-- Writing one cell leaves every other address alone. -/
theorem Memory.get_set_of_ne (m : Memory) {addr x : Nat} (v : Byte) (h : x ≠ addr) :
    (m.set addr v).get x = m.get x := by
  induction m with
  | nil =>
    simp only [Memory.set]
    split <;> simp [Memory.get, Ne.symm h]
  | cons cell rest ih =>
    obtain ⟨k, w⟩ := cell
    simp only [Memory.set]
    (repeat' split) <;> (subst_vars; simp [Memory.get, Ne.symm h, ih])

/-- Reading the cell just written gives the byte written. -/
theorem Memory.get_set_same {m : Memory} {lo : Nat} (addr : Nat) (v : Byte) (hm : Memory.wfFrom lo m = true) :
    (m.set addr v).get addr = v := by
  induction m generalizing lo with
  | nil =>
    rw [Memory.set]
    split
    · rename_i hv
      rw [hv]
      rfl
    · rw [Memory.get, if_pos rfl]
  | cons cell rest ih =>
    obtain ⟨k, w⟩ := cell
    have hm' := hm
    simp only [Memory.wfFrom, Bool.and_eq_true, decide_eq_true_eq] at hm'
    rw [Memory.set]
    (repeat' split)
    · rename_i h1 hv
      rw [hv]
      rw [Memory.get, if_neg (by omega)]
      exact Memory.get_of_lt hm'.2 (by omega)
    · rw [Memory.get, if_pos rfl]
    · rename_i h1 h2 hv
      rw [hv]
      exact Memory.get_of_lt hm'.2 (by omega)
    · rw [Memory.get, if_pos rfl]
    · rename_i h1 h2
      rw [Memory.get, if_neg (Ne.symm h2)]
      exact ih hm'.2

/-- Writing a stored byte keeps the canonical form. -/
theorem Memory.wfFrom_set {m : Memory} {lo addr : Nat} (v : Byte) (hm : Memory.wfFrom lo m = true) (hlo : lo ≤ addr)
    (ha : isStorage addr = true) : Memory.wfFrom lo (m.set addr v) = true := by
  induction m generalizing lo with
  | nil =>
    rw [Memory.set]
    split
    · rfl
    · rename_i hv
      simp [Memory.wfFrom, hlo, hv, ha]
  | cons cell rest ih =>
    obtain ⟨k, w⟩ := cell
    have hm' := hm
    simp only [Memory.wfFrom, Bool.and_eq_true, decide_eq_true_eq] at hm'
    rw [Memory.set]
    (repeat' split)
    · exact hm
    · rename_i h1 hv
      simp only [Memory.wfFrom, Bool.and_eq_true, decide_eq_true_eq]
      exact ⟨⟨⟨hlo, hv⟩, ha⟩, ⟨⟨by omega, hm'.1.1.2⟩, hm'.1.2⟩, hm'.2⟩
    · exact Memory.wfFrom_mono hm'.2 (by omega)
    · rename_i h1 h2 hv
      simp only [Memory.wfFrom, Bool.and_eq_true, decide_eq_true_eq]
      exact ⟨⟨⟨hlo, hv⟩, ha⟩, Memory.wfFrom_mono hm'.2 (by omega)⟩
    · rename_i h1 h2
      simp only [Memory.wfFrom, Bool.and_eq_true, decide_eq_true_eq]
      exact ⟨⟨⟨hm'.1.1.1, hm'.1.1.2⟩, hm'.1.2⟩, ih hm'.2 (by omega)⟩

/-- Writing a stored byte keeps memory well formed. -/
theorem Memory.wf_set {m : Memory} {addr : Nat} (v : Byte) (hm : m.wf = true) (ha : isStorage addr = true) :
    (m.set addr v).wf = true := Memory.wfFrom_set v hm (Nat.zero_le _) ha

/-- A legal region's addresses are stored bytes. -/
theorem isStorage_of_legal {addr : Word} (h : (regionOf addr).legal = true) : isStorage addr.toNat = true := by
  simp [isStorage, h, addr.isLt]

/-- The canonical form is canonical: two well-formed memories that read alike are the same list. -/
theorem Memory.eq_of_get {m m' : Memory} {lo : Nat} (hm : Memory.wfFrom lo m = true) (hm' : Memory.wfFrom lo m' = true)
    (h : ∀ x, m.get x = m'.get x) : m = m' := by
  induction m generalizing lo m' with
  | nil =>
    cases m' with
    | nil => rfl
    | cons cell rest =>
      obtain ⟨k, v⟩ := cell
      simp only [Memory.wfFrom, Bool.and_eq_true, decide_eq_true_eq] at hm'
      have hk := h k
      rw [Memory.get, Memory.get, if_pos rfl] at hk
      exact absurd hk.symm hm'.1.1.2
  | cons cell rest ih =>
    obtain ⟨k, v⟩ := cell
    have hw := hm
    simp only [Memory.wfFrom, Bool.and_eq_true, decide_eq_true_eq] at hw
    cases m' with
    | nil =>
      have hk := h k
      rw [Memory.get, Memory.get, if_pos rfl] at hk
      exact absurd hk hw.1.1.2
    | cons cell' rest' =>
      obtain ⟨k', v'⟩ := cell'
      have hw' := hm'
      simp only [Memory.wfFrom, Bool.and_eq_true, decide_eq_true_eq] at hw'
      have hkk : k = k' := by
        rcases Nat.lt_trichotomy k k' with hlt | heq | hgt
        · have hk := h k
          rw [Memory.get, if_pos rfl, Memory.get, if_neg (by omega), Memory.get_of_lt hw'.2 (by omega)] at hk
          exact absurd hk hw.1.1.2
        · exact heq
        · have hk := h k'
          rw [Memory.get, if_neg (by omega), Memory.get_of_lt hw.2 (by omega), Memory.get, if_pos rfl] at hk
          exact absurd hk.symm hw'.1.1.2
      subst hkk
      have hv : v = v' := by simpa [Memory.get] using h k
      subst hv
      have hrest : rest = rest' := by
        apply ih hw.2 hw'.2
        intro x
        by_cases hx : k = x
        · subst hx
          rw [Memory.get_of_lt hw.2 (by omega), Memory.get_of_lt hw'.2 (by omega)]
        · have := h x
          rwa [Memory.get, if_neg hx, Memory.get, if_neg hx] at this
      rw [hrest]

end Sys2Proof.Machine
end

