-- ==== Sys2Proof/Laws/State.lean ====
section
/-! SUPPORT. One lemma per field per named update of the state, so that no later proof unfolds a record update. -/

namespace Sys2Proof.Machine

variable (s : State)

@[simp] theorem setSp_a (v : Word) : (s.setSp v).a = s.a := rfl
@[simp] theorem setSp_f (v : Word) : (s.setSp v).f = s.f := rfl
@[simp] theorem setSp_b (v : Word) : (s.setSp v).b = s.b := rfl
@[simp] theorem setSp_c (v : Word) : (s.setSp v).c = s.c := rfl
@[simp] theorem setSp_d (v : Word) : (s.setSp v).d = s.d := rfl
@[simp] theorem setSp_e (v : Word) : (s.setSp v).e = s.e := rfl
@[simp] theorem setSp_h (v : Word) : (s.setSp v).h = s.h := rfl
@[simp] theorem setSp_l (v : Word) : (s.setSp v).l = s.l := rfl
@[simp] theorem setSp_sp (v : Word) : (s.setSp v).sp = v := rfl
@[simp] theorem setSp_pc (v : Word) : (s.setSp v).pc = s.pc := rfl
@[simp] theorem setSp_ime (v : Word) : (s.setSp v).ime = s.ime := rfl
@[simp] theorem setSp_imePending (v : Word) : (s.setSp v).imePending = s.imePending := rfl
@[simp] theorem setSp_halted (v : Word) : (s.setSp v).halted = s.halted := rfl
@[simp] theorem setSp_stopped (v : Word) : (s.setSp v).stopped = s.stopped := rfl
@[simp] theorem setSp_mem (v : Word) : (s.setSp v).mem = s.mem := rfl
@[simp] theorem setSp_diag (v : Word) : (s.setSp v).diag = s.diag := rfl
@[simp] theorem setSp_ticks (v : Word) : (s.setSp v).ticks = s.ticks := rfl
@[simp] theorem setSp_fatal (v : Word) : (s.setSp v).fatal = s.fatal := rfl
@[simp] theorem setSp_params (v : Word) : (s.setSp v).params = s.params := rfl

@[simp] theorem setPc_a (v : Word) : (s.setPc v).a = s.a := rfl
@[simp] theorem setPc_f (v : Word) : (s.setPc v).f = s.f := rfl
@[simp] theorem setPc_b (v : Word) : (s.setPc v).b = s.b := rfl
@[simp] theorem setPc_c (v : Word) : (s.setPc v).c = s.c := rfl
@[simp] theorem setPc_d (v : Word) : (s.setPc v).d = s.d := rfl
@[simp] theorem setPc_e (v : Word) : (s.setPc v).e = s.e := rfl
@[simp] theorem setPc_h (v : Word) : (s.setPc v).h = s.h := rfl
@[simp] theorem setPc_l (v : Word) : (s.setPc v).l = s.l := rfl
@[simp] theorem setPc_sp (v : Word) : (s.setPc v).sp = s.sp := rfl
@[simp] theorem setPc_pc (v : Word) : (s.setPc v).pc = v := rfl
@[simp] theorem setPc_ime (v : Word) : (s.setPc v).ime = s.ime := rfl
@[simp] theorem setPc_imePending (v : Word) : (s.setPc v).imePending = s.imePending := rfl
@[simp] theorem setPc_halted (v : Word) : (s.setPc v).halted = s.halted := rfl
@[simp] theorem setPc_stopped (v : Word) : (s.setPc v).stopped = s.stopped := rfl
@[simp] theorem setPc_mem (v : Word) : (s.setPc v).mem = s.mem := rfl
@[simp] theorem setPc_diag (v : Word) : (s.setPc v).diag = s.diag := rfl
@[simp] theorem setPc_ticks (v : Word) : (s.setPc v).ticks = s.ticks := rfl
@[simp] theorem setPc_fatal (v : Word) : (s.setPc v).fatal = s.fatal := rfl
@[simp] theorem setPc_params (v : Word) : (s.setPc v).params = s.params := rfl

@[simp] theorem setMem_a (m : Memory) : (s.setMem m).a = s.a := rfl
@[simp] theorem setMem_f (m : Memory) : (s.setMem m).f = s.f := rfl
@[simp] theorem setMem_b (m : Memory) : (s.setMem m).b = s.b := rfl
@[simp] theorem setMem_c (m : Memory) : (s.setMem m).c = s.c := rfl
@[simp] theorem setMem_d (m : Memory) : (s.setMem m).d = s.d := rfl
@[simp] theorem setMem_e (m : Memory) : (s.setMem m).e = s.e := rfl
@[simp] theorem setMem_h (m : Memory) : (s.setMem m).h = s.h := rfl
@[simp] theorem setMem_l (m : Memory) : (s.setMem m).l = s.l := rfl
@[simp] theorem setMem_sp (m : Memory) : (s.setMem m).sp = s.sp := rfl
@[simp] theorem setMem_pc (m : Memory) : (s.setMem m).pc = s.pc := rfl
@[simp] theorem setMem_ime (m : Memory) : (s.setMem m).ime = s.ime := rfl
@[simp] theorem setMem_imePending (m : Memory) : (s.setMem m).imePending = s.imePending := rfl
@[simp] theorem setMem_halted (m : Memory) : (s.setMem m).halted = s.halted := rfl
@[simp] theorem setMem_stopped (m : Memory) : (s.setMem m).stopped = s.stopped := rfl
@[simp] theorem setMem_mem (m : Memory) : (s.setMem m).mem = m := rfl
@[simp] theorem setMem_diag (m : Memory) : (s.setMem m).diag = s.diag := rfl
@[simp] theorem setMem_ticks (m : Memory) : (s.setMem m).ticks = s.ticks := rfl
@[simp] theorem setMem_fatal (m : Memory) : (s.setMem m).fatal = s.fatal := rfl
@[simp] theorem setMem_params (m : Memory) : (s.setMem m).params = s.params := rfl

@[simp] theorem setIme_a (v : Bool) : (s.setIme v).a = s.a := rfl
@[simp] theorem setIme_f (v : Bool) : (s.setIme v).f = s.f := rfl
@[simp] theorem setIme_b (v : Bool) : (s.setIme v).b = s.b := rfl
@[simp] theorem setIme_c (v : Bool) : (s.setIme v).c = s.c := rfl
@[simp] theorem setIme_d (v : Bool) : (s.setIme v).d = s.d := rfl
@[simp] theorem setIme_e (v : Bool) : (s.setIme v).e = s.e := rfl
@[simp] theorem setIme_h (v : Bool) : (s.setIme v).h = s.h := rfl
@[simp] theorem setIme_l (v : Bool) : (s.setIme v).l = s.l := rfl
@[simp] theorem setIme_sp (v : Bool) : (s.setIme v).sp = s.sp := rfl
@[simp] theorem setIme_pc (v : Bool) : (s.setIme v).pc = s.pc := rfl
@[simp] theorem setIme_ime (v : Bool) : (s.setIme v).ime = v := rfl
@[simp] theorem setIme_imePending (v : Bool) : (s.setIme v).imePending = s.imePending := rfl
@[simp] theorem setIme_halted (v : Bool) : (s.setIme v).halted = s.halted := rfl
@[simp] theorem setIme_stopped (v : Bool) : (s.setIme v).stopped = s.stopped := rfl
@[simp] theorem setIme_mem (v : Bool) : (s.setIme v).mem = s.mem := rfl
@[simp] theorem setIme_diag (v : Bool) : (s.setIme v).diag = s.diag := rfl
@[simp] theorem setIme_ticks (v : Bool) : (s.setIme v).ticks = s.ticks := rfl
@[simp] theorem setIme_fatal (v : Bool) : (s.setIme v).fatal = s.fatal := rfl
@[simp] theorem setIme_params (v : Bool) : (s.setIme v).params = s.params := rfl

@[simp] theorem setImePending_a (v : Bool) : (s.setImePending v).a = s.a := rfl
@[simp] theorem setImePending_f (v : Bool) : (s.setImePending v).f = s.f := rfl
@[simp] theorem setImePending_b (v : Bool) : (s.setImePending v).b = s.b := rfl
@[simp] theorem setImePending_c (v : Bool) : (s.setImePending v).c = s.c := rfl
@[simp] theorem setImePending_d (v : Bool) : (s.setImePending v).d = s.d := rfl
@[simp] theorem setImePending_e (v : Bool) : (s.setImePending v).e = s.e := rfl
@[simp] theorem setImePending_h (v : Bool) : (s.setImePending v).h = s.h := rfl
@[simp] theorem setImePending_l (v : Bool) : (s.setImePending v).l = s.l := rfl
@[simp] theorem setImePending_sp (v : Bool) : (s.setImePending v).sp = s.sp := rfl
@[simp] theorem setImePending_pc (v : Bool) : (s.setImePending v).pc = s.pc := rfl
@[simp] theorem setImePending_ime (v : Bool) : (s.setImePending v).ime = s.ime := rfl
@[simp] theorem setImePending_imePending (v : Bool) : (s.setImePending v).imePending = v := rfl
@[simp] theorem setImePending_halted (v : Bool) : (s.setImePending v).halted = s.halted := rfl
@[simp] theorem setImePending_stopped (v : Bool) : (s.setImePending v).stopped = s.stopped := rfl
@[simp] theorem setImePending_mem (v : Bool) : (s.setImePending v).mem = s.mem := rfl
@[simp] theorem setImePending_diag (v : Bool) : (s.setImePending v).diag = s.diag := rfl
@[simp] theorem setImePending_ticks (v : Bool) : (s.setImePending v).ticks = s.ticks := rfl
@[simp] theorem setImePending_fatal (v : Bool) : (s.setImePending v).fatal = s.fatal := rfl
@[simp] theorem setImePending_params (v : Bool) : (s.setImePending v).params = s.params := rfl

@[simp] theorem setHalted_a (v : Bool) : (s.setHalted v).a = s.a := rfl
@[simp] theorem setHalted_f (v : Bool) : (s.setHalted v).f = s.f := rfl
@[simp] theorem setHalted_b (v : Bool) : (s.setHalted v).b = s.b := rfl
@[simp] theorem setHalted_c (v : Bool) : (s.setHalted v).c = s.c := rfl
@[simp] theorem setHalted_d (v : Bool) : (s.setHalted v).d = s.d := rfl
@[simp] theorem setHalted_e (v : Bool) : (s.setHalted v).e = s.e := rfl
@[simp] theorem setHalted_h (v : Bool) : (s.setHalted v).h = s.h := rfl
@[simp] theorem setHalted_l (v : Bool) : (s.setHalted v).l = s.l := rfl
@[simp] theorem setHalted_sp (v : Bool) : (s.setHalted v).sp = s.sp := rfl
@[simp] theorem setHalted_pc (v : Bool) : (s.setHalted v).pc = s.pc := rfl
@[simp] theorem setHalted_ime (v : Bool) : (s.setHalted v).ime = s.ime := rfl
@[simp] theorem setHalted_imePending (v : Bool) : (s.setHalted v).imePending = s.imePending := rfl
@[simp] theorem setHalted_halted (v : Bool) : (s.setHalted v).halted = v := rfl
@[simp] theorem setHalted_stopped (v : Bool) : (s.setHalted v).stopped = s.stopped := rfl
@[simp] theorem setHalted_mem (v : Bool) : (s.setHalted v).mem = s.mem := rfl
@[simp] theorem setHalted_diag (v : Bool) : (s.setHalted v).diag = s.diag := rfl
@[simp] theorem setHalted_ticks (v : Bool) : (s.setHalted v).ticks = s.ticks := rfl
@[simp] theorem setHalted_fatal (v : Bool) : (s.setHalted v).fatal = s.fatal := rfl
@[simp] theorem setHalted_params (v : Bool) : (s.setHalted v).params = s.params := rfl

@[simp] theorem setStopped_a (v : Bool) : (s.setStopped v).a = s.a := rfl
@[simp] theorem setStopped_f (v : Bool) : (s.setStopped v).f = s.f := rfl
@[simp] theorem setStopped_b (v : Bool) : (s.setStopped v).b = s.b := rfl
@[simp] theorem setStopped_c (v : Bool) : (s.setStopped v).c = s.c := rfl
@[simp] theorem setStopped_d (v : Bool) : (s.setStopped v).d = s.d := rfl
@[simp] theorem setStopped_e (v : Bool) : (s.setStopped v).e = s.e := rfl
@[simp] theorem setStopped_h (v : Bool) : (s.setStopped v).h = s.h := rfl
@[simp] theorem setStopped_l (v : Bool) : (s.setStopped v).l = s.l := rfl
@[simp] theorem setStopped_sp (v : Bool) : (s.setStopped v).sp = s.sp := rfl
@[simp] theorem setStopped_pc (v : Bool) : (s.setStopped v).pc = s.pc := rfl
@[simp] theorem setStopped_ime (v : Bool) : (s.setStopped v).ime = s.ime := rfl
@[simp] theorem setStopped_imePending (v : Bool) : (s.setStopped v).imePending = s.imePending := rfl
@[simp] theorem setStopped_halted (v : Bool) : (s.setStopped v).halted = s.halted := rfl
@[simp] theorem setStopped_stopped (v : Bool) : (s.setStopped v).stopped = v := rfl
@[simp] theorem setStopped_mem (v : Bool) : (s.setStopped v).mem = s.mem := rfl
@[simp] theorem setStopped_diag (v : Bool) : (s.setStopped v).diag = s.diag := rfl
@[simp] theorem setStopped_ticks (v : Bool) : (s.setStopped v).ticks = s.ticks := rfl
@[simp] theorem setStopped_fatal (v : Bool) : (s.setStopped v).fatal = s.fatal := rfl
@[simp] theorem setStopped_params (v : Bool) : (s.setStopped v).params = s.params := rfl

@[simp] theorem setFatal_a (v : Bool) : (s.setFatal v).a = s.a := rfl
@[simp] theorem setFatal_f (v : Bool) : (s.setFatal v).f = s.f := rfl
@[simp] theorem setFatal_b (v : Bool) : (s.setFatal v).b = s.b := rfl
@[simp] theorem setFatal_c (v : Bool) : (s.setFatal v).c = s.c := rfl
@[simp] theorem setFatal_d (v : Bool) : (s.setFatal v).d = s.d := rfl
@[simp] theorem setFatal_e (v : Bool) : (s.setFatal v).e = s.e := rfl
@[simp] theorem setFatal_h (v : Bool) : (s.setFatal v).h = s.h := rfl
@[simp] theorem setFatal_l (v : Bool) : (s.setFatal v).l = s.l := rfl
@[simp] theorem setFatal_sp (v : Bool) : (s.setFatal v).sp = s.sp := rfl
@[simp] theorem setFatal_pc (v : Bool) : (s.setFatal v).pc = s.pc := rfl
@[simp] theorem setFatal_ime (v : Bool) : (s.setFatal v).ime = s.ime := rfl
@[simp] theorem setFatal_imePending (v : Bool) : (s.setFatal v).imePending = s.imePending := rfl
@[simp] theorem setFatal_halted (v : Bool) : (s.setFatal v).halted = s.halted := rfl
@[simp] theorem setFatal_stopped (v : Bool) : (s.setFatal v).stopped = s.stopped := rfl
@[simp] theorem setFatal_mem (v : Bool) : (s.setFatal v).mem = s.mem := rfl
@[simp] theorem setFatal_diag (v : Bool) : (s.setFatal v).diag = s.diag := rfl
@[simp] theorem setFatal_ticks (v : Bool) : (s.setFatal v).ticks = s.ticks := rfl
@[simp] theorem setFatal_fatal (v : Bool) : (s.setFatal v).fatal = v := rfl
@[simp] theorem setFatal_params (v : Bool) : (s.setFatal v).params = s.params := rfl

@[simp] theorem tick_a (n : Nat) : (s.tick n).a = s.a := rfl
@[simp] theorem tick_f (n : Nat) : (s.tick n).f = s.f := rfl
@[simp] theorem tick_b (n : Nat) : (s.tick n).b = s.b := rfl
@[simp] theorem tick_c (n : Nat) : (s.tick n).c = s.c := rfl
@[simp] theorem tick_d (n : Nat) : (s.tick n).d = s.d := rfl
@[simp] theorem tick_e (n : Nat) : (s.tick n).e = s.e := rfl
@[simp] theorem tick_h (n : Nat) : (s.tick n).h = s.h := rfl
@[simp] theorem tick_l (n : Nat) : (s.tick n).l = s.l := rfl
@[simp] theorem tick_sp (n : Nat) : (s.tick n).sp = s.sp := rfl
@[simp] theorem tick_pc (n : Nat) : (s.tick n).pc = s.pc := rfl
@[simp] theorem tick_ime (n : Nat) : (s.tick n).ime = s.ime := rfl
@[simp] theorem tick_imePending (n : Nat) : (s.tick n).imePending = s.imePending := rfl
@[simp] theorem tick_halted (n : Nat) : (s.tick n).halted = s.halted := rfl
@[simp] theorem tick_stopped (n : Nat) : (s.tick n).stopped = s.stopped := rfl
@[simp] theorem tick_mem (n : Nat) : (s.tick n).mem = s.mem := rfl
@[simp] theorem tick_diag (n : Nat) : (s.tick n).diag = s.diag := rfl
@[simp] theorem tick_ticks (n : Nat) : (s.tick n).ticks = s.ticks + n := rfl
@[simp] theorem tick_fatal (n : Nat) : (s.tick n).fatal = s.fatal := rfl
@[simp] theorem tick_params (n : Nat) : (s.tick n).params = s.params := rfl

@[simp] theorem internal_a (n : Nat) : (internal n s).a = s.a := rfl
@[simp] theorem internal_f (n : Nat) : (internal n s).f = s.f := rfl
@[simp] theorem internal_b (n : Nat) : (internal n s).b = s.b := rfl
@[simp] theorem internal_c (n : Nat) : (internal n s).c = s.c := rfl
@[simp] theorem internal_d (n : Nat) : (internal n s).d = s.d := rfl
@[simp] theorem internal_e (n : Nat) : (internal n s).e = s.e := rfl
@[simp] theorem internal_h (n : Nat) : (internal n s).h = s.h := rfl
@[simp] theorem internal_l (n : Nat) : (internal n s).l = s.l := rfl
@[simp] theorem internal_sp (n : Nat) : (internal n s).sp = s.sp := rfl
@[simp] theorem internal_pc (n : Nat) : (internal n s).pc = s.pc := rfl
@[simp] theorem internal_ime (n : Nat) : (internal n s).ime = s.ime := rfl
@[simp] theorem internal_imePending (n : Nat) : (internal n s).imePending = s.imePending := rfl
@[simp] theorem internal_halted (n : Nat) : (internal n s).halted = s.halted := rfl
@[simp] theorem internal_stopped (n : Nat) : (internal n s).stopped = s.stopped := rfl
@[simp] theorem internal_mem (n : Nat) : (internal n s).mem = s.mem := rfl
@[simp] theorem internal_diag (n : Nat) : (internal n s).diag = s.diag := rfl
@[simp] theorem internal_ticks (n : Nat) : (internal n s).ticks = s.ticks + 4 * n := rfl
@[simp] theorem internal_fatal (n : Nat) : (internal n s).fatal = s.fatal := rfl
@[simp] theorem internal_params (n : Nat) : (internal n s).params = s.params := rfl

@[simp] theorem log_a (r : Diag) : (s.log r).a = s.a := rfl
@[simp] theorem log_f (r : Diag) : (s.log r).f = s.f := rfl
@[simp] theorem log_b (r : Diag) : (s.log r).b = s.b := rfl
@[simp] theorem log_c (r : Diag) : (s.log r).c = s.c := rfl
@[simp] theorem log_d (r : Diag) : (s.log r).d = s.d := rfl
@[simp] theorem log_e (r : Diag) : (s.log r).e = s.e := rfl
@[simp] theorem log_h (r : Diag) : (s.log r).h = s.h := rfl
@[simp] theorem log_l (r : Diag) : (s.log r).l = s.l := rfl
@[simp] theorem log_sp (r : Diag) : (s.log r).sp = s.sp := rfl
@[simp] theorem log_pc (r : Diag) : (s.log r).pc = s.pc := rfl
@[simp] theorem log_ime (r : Diag) : (s.log r).ime = s.ime := rfl
@[simp] theorem log_imePending (r : Diag) : (s.log r).imePending = s.imePending := rfl
@[simp] theorem log_halted (r : Diag) : (s.log r).halted = s.halted := rfl
@[simp] theorem log_stopped (r : Diag) : (s.log r).stopped = s.stopped := rfl
@[simp] theorem log_mem (r : Diag) : (s.log r).mem = s.mem := rfl
@[simp] theorem log_diag (r : Diag) : (s.log r).diag = s.diag ++ [r] := rfl
@[simp] theorem log_ticks (r : Diag) : (s.log r).ticks = s.ticks := rfl
@[simp] theorem log_fatal (r : Diag) : (s.log r).fatal = s.fatal := rfl
@[simp] theorem log_params (r : Diag) : (s.log r).params = s.params := rfl

@[simp] theorem setF_a (v : Byte) : (s.setF v).a = s.a := rfl
@[simp] theorem setF_f (v : Byte) : (s.setF v).f = v &&& 0xF0#8 := rfl
@[simp] theorem setF_b (v : Byte) : (s.setF v).b = s.b := rfl
@[simp] theorem setF_c (v : Byte) : (s.setF v).c = s.c := rfl
@[simp] theorem setF_d (v : Byte) : (s.setF v).d = s.d := rfl
@[simp] theorem setF_e (v : Byte) : (s.setF v).e = s.e := rfl
@[simp] theorem setF_h (v : Byte) : (s.setF v).h = s.h := rfl
@[simp] theorem setF_l (v : Byte) : (s.setF v).l = s.l := rfl
@[simp] theorem setF_sp (v : Byte) : (s.setF v).sp = s.sp := rfl
@[simp] theorem setF_pc (v : Byte) : (s.setF v).pc = s.pc := rfl
@[simp] theorem setF_ime (v : Byte) : (s.setF v).ime = s.ime := rfl
@[simp] theorem setF_imePending (v : Byte) : (s.setF v).imePending = s.imePending := rfl
@[simp] theorem setF_halted (v : Byte) : (s.setF v).halted = s.halted := rfl
@[simp] theorem setF_stopped (v : Byte) : (s.setF v).stopped = s.stopped := rfl
@[simp] theorem setF_mem (v : Byte) : (s.setF v).mem = s.mem := rfl
@[simp] theorem setF_diag (v : Byte) : (s.setF v).diag = s.diag := rfl
@[simp] theorem setF_ticks (v : Byte) : (s.setF v).ticks = s.ticks := rfl
@[simp] theorem setF_fatal (v : Byte) : (s.setF v).fatal = s.fatal := rfl
@[simp] theorem setF_params (v : Byte) : (s.setF v).params = s.params := rfl

@[simp] theorem setFlags_a (fl : Flags) : (s.setFlags fl).a = s.a := rfl
@[simp] theorem setFlags_f (fl : Flags) : (s.setFlags fl).f = fl.byte &&& 0xF0#8 := rfl
@[simp] theorem setFlags_b (fl : Flags) : (s.setFlags fl).b = s.b := rfl
@[simp] theorem setFlags_c (fl : Flags) : (s.setFlags fl).c = s.c := rfl
@[simp] theorem setFlags_d (fl : Flags) : (s.setFlags fl).d = s.d := rfl
@[simp] theorem setFlags_e (fl : Flags) : (s.setFlags fl).e = s.e := rfl
@[simp] theorem setFlags_h (fl : Flags) : (s.setFlags fl).h = s.h := rfl
@[simp] theorem setFlags_l (fl : Flags) : (s.setFlags fl).l = s.l := rfl
@[simp] theorem setFlags_sp (fl : Flags) : (s.setFlags fl).sp = s.sp := rfl
@[simp] theorem setFlags_pc (fl : Flags) : (s.setFlags fl).pc = s.pc := rfl
@[simp] theorem setFlags_ime (fl : Flags) : (s.setFlags fl).ime = s.ime := rfl
@[simp] theorem setFlags_imePending (fl : Flags) : (s.setFlags fl).imePending = s.imePending := rfl
@[simp] theorem setFlags_halted (fl : Flags) : (s.setFlags fl).halted = s.halted := rfl
@[simp] theorem setFlags_stopped (fl : Flags) : (s.setFlags fl).stopped = s.stopped := rfl
@[simp] theorem setFlags_mem (fl : Flags) : (s.setFlags fl).mem = s.mem := rfl
@[simp] theorem setFlags_diag (fl : Flags) : (s.setFlags fl).diag = s.diag := rfl
@[simp] theorem setFlags_ticks (fl : Flags) : (s.setFlags fl).ticks = s.ticks := rfl
@[simp] theorem setFlags_fatal (fl : Flags) : (s.setFlags fl).fatal = s.fatal := rfl
@[simp] theorem setFlags_params (fl : Flags) : (s.setFlags fl).params = s.params := rfl

@[simp] theorem setAf_a (v : Word) : (s.setAf v).a = hiByte v := rfl
@[simp] theorem setAf_f (v : Word) : (s.setAf v).f = loByte v &&& 0xF0#8 := rfl
@[simp] theorem setAf_b (v : Word) : (s.setAf v).b = s.b := rfl
@[simp] theorem setAf_c (v : Word) : (s.setAf v).c = s.c := rfl
@[simp] theorem setAf_d (v : Word) : (s.setAf v).d = s.d := rfl
@[simp] theorem setAf_e (v : Word) : (s.setAf v).e = s.e := rfl
@[simp] theorem setAf_h (v : Word) : (s.setAf v).h = s.h := rfl
@[simp] theorem setAf_l (v : Word) : (s.setAf v).l = s.l := rfl
@[simp] theorem setAf_sp (v : Word) : (s.setAf v).sp = s.sp := rfl
@[simp] theorem setAf_pc (v : Word) : (s.setAf v).pc = s.pc := rfl
@[simp] theorem setAf_ime (v : Word) : (s.setAf v).ime = s.ime := rfl
@[simp] theorem setAf_imePending (v : Word) : (s.setAf v).imePending = s.imePending := rfl
@[simp] theorem setAf_halted (v : Word) : (s.setAf v).halted = s.halted := rfl
@[simp] theorem setAf_stopped (v : Word) : (s.setAf v).stopped = s.stopped := rfl
@[simp] theorem setAf_mem (v : Word) : (s.setAf v).mem = s.mem := rfl
@[simp] theorem setAf_diag (v : Word) : (s.setAf v).diag = s.diag := rfl
@[simp] theorem setAf_ticks (v : Word) : (s.setAf v).ticks = s.ticks := rfl
@[simp] theorem setAf_fatal (v : Word) : (s.setAf v).fatal = s.fatal := rfl
@[simp] theorem setAf_params (v : Word) : (s.setAf v).params = s.params := rfl

@[simp] theorem setBc_a (v : Word) : (s.setBc v).a = s.a := rfl
@[simp] theorem setBc_f (v : Word) : (s.setBc v).f = s.f := rfl
@[simp] theorem setBc_b (v : Word) : (s.setBc v).b = hiByte v := rfl
@[simp] theorem setBc_c (v : Word) : (s.setBc v).c = loByte v := rfl
@[simp] theorem setBc_d (v : Word) : (s.setBc v).d = s.d := rfl
@[simp] theorem setBc_e (v : Word) : (s.setBc v).e = s.e := rfl
@[simp] theorem setBc_h (v : Word) : (s.setBc v).h = s.h := rfl
@[simp] theorem setBc_l (v : Word) : (s.setBc v).l = s.l := rfl
@[simp] theorem setBc_sp (v : Word) : (s.setBc v).sp = s.sp := rfl
@[simp] theorem setBc_pc (v : Word) : (s.setBc v).pc = s.pc := rfl
@[simp] theorem setBc_ime (v : Word) : (s.setBc v).ime = s.ime := rfl
@[simp] theorem setBc_imePending (v : Word) : (s.setBc v).imePending = s.imePending := rfl
@[simp] theorem setBc_halted (v : Word) : (s.setBc v).halted = s.halted := rfl
@[simp] theorem setBc_stopped (v : Word) : (s.setBc v).stopped = s.stopped := rfl
@[simp] theorem setBc_mem (v : Word) : (s.setBc v).mem = s.mem := rfl
@[simp] theorem setBc_diag (v : Word) : (s.setBc v).diag = s.diag := rfl
@[simp] theorem setBc_ticks (v : Word) : (s.setBc v).ticks = s.ticks := rfl
@[simp] theorem setBc_fatal (v : Word) : (s.setBc v).fatal = s.fatal := rfl
@[simp] theorem setBc_params (v : Word) : (s.setBc v).params = s.params := rfl

@[simp] theorem setDe_a (v : Word) : (s.setDe v).a = s.a := rfl
@[simp] theorem setDe_f (v : Word) : (s.setDe v).f = s.f := rfl
@[simp] theorem setDe_b (v : Word) : (s.setDe v).b = s.b := rfl
@[simp] theorem setDe_c (v : Word) : (s.setDe v).c = s.c := rfl
@[simp] theorem setDe_d (v : Word) : (s.setDe v).d = hiByte v := rfl
@[simp] theorem setDe_e (v : Word) : (s.setDe v).e = loByte v := rfl
@[simp] theorem setDe_h (v : Word) : (s.setDe v).h = s.h := rfl
@[simp] theorem setDe_l (v : Word) : (s.setDe v).l = s.l := rfl
@[simp] theorem setDe_sp (v : Word) : (s.setDe v).sp = s.sp := rfl
@[simp] theorem setDe_pc (v : Word) : (s.setDe v).pc = s.pc := rfl
@[simp] theorem setDe_ime (v : Word) : (s.setDe v).ime = s.ime := rfl
@[simp] theorem setDe_imePending (v : Word) : (s.setDe v).imePending = s.imePending := rfl
@[simp] theorem setDe_halted (v : Word) : (s.setDe v).halted = s.halted := rfl
@[simp] theorem setDe_stopped (v : Word) : (s.setDe v).stopped = s.stopped := rfl
@[simp] theorem setDe_mem (v : Word) : (s.setDe v).mem = s.mem := rfl
@[simp] theorem setDe_diag (v : Word) : (s.setDe v).diag = s.diag := rfl
@[simp] theorem setDe_ticks (v : Word) : (s.setDe v).ticks = s.ticks := rfl
@[simp] theorem setDe_fatal (v : Word) : (s.setDe v).fatal = s.fatal := rfl
@[simp] theorem setDe_params (v : Word) : (s.setDe v).params = s.params := rfl

@[simp] theorem setHl_a (v : Word) : (s.setHl v).a = s.a := rfl
@[simp] theorem setHl_f (v : Word) : (s.setHl v).f = s.f := rfl
@[simp] theorem setHl_b (v : Word) : (s.setHl v).b = s.b := rfl
@[simp] theorem setHl_c (v : Word) : (s.setHl v).c = s.c := rfl
@[simp] theorem setHl_d (v : Word) : (s.setHl v).d = s.d := rfl
@[simp] theorem setHl_e (v : Word) : (s.setHl v).e = s.e := rfl
@[simp] theorem setHl_h (v : Word) : (s.setHl v).h = hiByte v := rfl
@[simp] theorem setHl_l (v : Word) : (s.setHl v).l = loByte v := rfl
@[simp] theorem setHl_sp (v : Word) : (s.setHl v).sp = s.sp := rfl
@[simp] theorem setHl_pc (v : Word) : (s.setHl v).pc = s.pc := rfl
@[simp] theorem setHl_ime (v : Word) : (s.setHl v).ime = s.ime := rfl
@[simp] theorem setHl_imePending (v : Word) : (s.setHl v).imePending = s.imePending := rfl
@[simp] theorem setHl_halted (v : Word) : (s.setHl v).halted = s.halted := rfl
@[simp] theorem setHl_stopped (v : Word) : (s.setHl v).stopped = s.stopped := rfl
@[simp] theorem setHl_mem (v : Word) : (s.setHl v).mem = s.mem := rfl
@[simp] theorem setHl_diag (v : Word) : (s.setHl v).diag = s.diag := rfl
@[simp] theorem setHl_ticks (v : Word) : (s.setHl v).ticks = s.ticks := rfl
@[simp] theorem setHl_fatal (v : Word) : (s.setHl v).fatal = s.fatal := rfl
@[simp] theorem setHl_params (v : Word) : (s.setHl v).params = s.params := rfl

@[simp] theorem setReg8_f (r : Reg8) (v : Byte) : (s.setReg8 r v).f = s.f := by cases r <;> rfl
@[simp] theorem setReg8_sp (r : Reg8) (v : Byte) : (s.setReg8 r v).sp = s.sp := by cases r <;> rfl
@[simp] theorem setReg8_pc (r : Reg8) (v : Byte) : (s.setReg8 r v).pc = s.pc := by cases r <;> rfl
@[simp] theorem setReg8_ime (r : Reg8) (v : Byte) : (s.setReg8 r v).ime = s.ime := by cases r <;> rfl
@[simp] theorem setReg8_imePending (r : Reg8) (v : Byte) : (s.setReg8 r v).imePending = s.imePending := by cases r <;> rfl
@[simp] theorem setReg8_halted (r : Reg8) (v : Byte) : (s.setReg8 r v).halted = s.halted := by cases r <;> rfl
@[simp] theorem setReg8_stopped (r : Reg8) (v : Byte) : (s.setReg8 r v).stopped = s.stopped := by cases r <;> rfl
@[simp] theorem setReg8_mem (r : Reg8) (v : Byte) : (s.setReg8 r v).mem = s.mem := by cases r <;> rfl
@[simp] theorem setReg8_diag (r : Reg8) (v : Byte) : (s.setReg8 r v).diag = s.diag := by cases r <;> rfl
@[simp] theorem setReg8_ticks (r : Reg8) (v : Byte) : (s.setReg8 r v).ticks = s.ticks := by cases r <;> rfl
@[simp] theorem setReg8_fatal (r : Reg8) (v : Byte) : (s.setReg8 r v).fatal = s.fatal := by cases r <;> rfl
@[simp] theorem setReg8_params (r : Reg8) (v : Byte) : (s.setReg8 r v).params = s.params := by cases r <;> rfl

@[simp] theorem setReg16_a (rr : Reg16) (v : Word) : (s.setReg16 rr v).a = s.a := by cases rr <;> rfl
@[simp] theorem setReg16_f (rr : Reg16) (v : Word) : (s.setReg16 rr v).f = s.f := by cases rr <;> rfl
@[simp] theorem setReg16_pc (rr : Reg16) (v : Word) : (s.setReg16 rr v).pc = s.pc := by cases rr <;> rfl
@[simp] theorem setReg16_ime (rr : Reg16) (v : Word) : (s.setReg16 rr v).ime = s.ime := by cases rr <;> rfl
@[simp] theorem setReg16_imePending (rr : Reg16) (v : Word) : (s.setReg16 rr v).imePending = s.imePending := by cases rr <;> rfl
@[simp] theorem setReg16_halted (rr : Reg16) (v : Word) : (s.setReg16 rr v).halted = s.halted := by cases rr <;> rfl
@[simp] theorem setReg16_stopped (rr : Reg16) (v : Word) : (s.setReg16 rr v).stopped = s.stopped := by cases rr <;> rfl
@[simp] theorem setReg16_mem (rr : Reg16) (v : Word) : (s.setReg16 rr v).mem = s.mem := by cases rr <;> rfl
@[simp] theorem setReg16_diag (rr : Reg16) (v : Word) : (s.setReg16 rr v).diag = s.diag := by cases rr <;> rfl
@[simp] theorem setReg16_ticks (rr : Reg16) (v : Word) : (s.setReg16 rr v).ticks = s.ticks := by cases rr <;> rfl
@[simp] theorem setReg16_fatal (rr : Reg16) (v : Word) : (s.setReg16 rr v).fatal = s.fatal := by cases rr <;> rfl
@[simp] theorem setReg16_params (rr : Reg16) (v : Word) : (s.setReg16 rr v).params = s.params := by cases rr <;> rfl

@[simp] theorem setPair_a (rr : StackPair) (v : Word) : (s.setPair rr v).a = s.a := by cases rr <;> rfl
@[simp] theorem setPair_f (rr : StackPair) (v : Word) : (s.setPair rr v).f = s.f := by cases rr <;> rfl
@[simp] theorem setPair_sp (rr : StackPair) (v : Word) : (s.setPair rr v).sp = s.sp := by cases rr <;> rfl
@[simp] theorem setPair_pc (rr : StackPair) (v : Word) : (s.setPair rr v).pc = s.pc := by cases rr <;> rfl
@[simp] theorem setPair_ime (rr : StackPair) (v : Word) : (s.setPair rr v).ime = s.ime := by cases rr <;> rfl
@[simp] theorem setPair_imePending (rr : StackPair) (v : Word) : (s.setPair rr v).imePending = s.imePending := by cases rr <;> rfl
@[simp] theorem setPair_halted (rr : StackPair) (v : Word) : (s.setPair rr v).halted = s.halted := by cases rr <;> rfl
@[simp] theorem setPair_stopped (rr : StackPair) (v : Word) : (s.setPair rr v).stopped = s.stopped := by cases rr <;> rfl
@[simp] theorem setPair_mem (rr : StackPair) (v : Word) : (s.setPair rr v).mem = s.mem := by cases rr <;> rfl
@[simp] theorem setPair_diag (rr : StackPair) (v : Word) : (s.setPair rr v).diag = s.diag := by cases rr <;> rfl
@[simp] theorem setPair_ticks (rr : StackPair) (v : Word) : (s.setPair rr v).ticks = s.ticks := by cases rr <;> rfl
@[simp] theorem setPair_fatal (rr : StackPair) (v : Word) : (s.setPair rr v).fatal = s.fatal := by cases rr <;> rfl
@[simp] theorem setPair_params (rr : StackPair) (v : Word) : (s.setPair rr v).params = s.params := by cases rr <;> rfl

@[simp] theorem raiseIllegalAccess_a (addr : Word) (dir : Direction) : (raiseIllegalAccess addr dir s).a = s.a := rfl
@[simp] theorem raiseIllegalAccess_f (addr : Word) (dir : Direction) : (raiseIllegalAccess addr dir s).f = s.f := rfl
@[simp] theorem raiseIllegalAccess_b (addr : Word) (dir : Direction) : (raiseIllegalAccess addr dir s).b = s.b := rfl
@[simp] theorem raiseIllegalAccess_c (addr : Word) (dir : Direction) : (raiseIllegalAccess addr dir s).c = s.c := rfl
@[simp] theorem raiseIllegalAccess_d (addr : Word) (dir : Direction) : (raiseIllegalAccess addr dir s).d = s.d := rfl
@[simp] theorem raiseIllegalAccess_e (addr : Word) (dir : Direction) : (raiseIllegalAccess addr dir s).e = s.e := rfl
@[simp] theorem raiseIllegalAccess_h (addr : Word) (dir : Direction) : (raiseIllegalAccess addr dir s).h = s.h := rfl
@[simp] theorem raiseIllegalAccess_l (addr : Word) (dir : Direction) : (raiseIllegalAccess addr dir s).l = s.l := rfl
@[simp] theorem raiseIllegalAccess_sp (addr : Word) (dir : Direction) : (raiseIllegalAccess addr dir s).sp = s.sp := rfl
@[simp] theorem raiseIllegalAccess_pc (addr : Word) (dir : Direction) : (raiseIllegalAccess addr dir s).pc = s.pc := rfl
@[simp] theorem raiseIllegalAccess_ime (addr : Word) (dir : Direction) : (raiseIllegalAccess addr dir s).ime = s.ime := rfl
@[simp] theorem raiseIllegalAccess_imePending (addr : Word) (dir : Direction) : (raiseIllegalAccess addr dir s).imePending = s.imePending := rfl
@[simp] theorem raiseIllegalAccess_halted (addr : Word) (dir : Direction) : (raiseIllegalAccess addr dir s).halted = s.halted := rfl
@[simp] theorem raiseIllegalAccess_stopped (addr : Word) (dir : Direction) : (raiseIllegalAccess addr dir s).stopped = s.stopped := rfl
@[simp] theorem raiseIllegalAccess_mem (addr : Word) (dir : Direction) : (raiseIllegalAccess addr dir s).mem = s.mem := rfl
@[simp] theorem raiseIllegalAccess_diag (addr : Word) (dir : Direction) : (raiseIllegalAccess addr dir s).diag = s.diag ++ [.illegalAccess (regionOf addr) addr dir] := rfl
@[simp] theorem raiseIllegalAccess_ticks (addr : Word) (dir : Direction) : (raiseIllegalAccess addr dir s).ticks = s.ticks := rfl
@[simp] theorem raiseIllegalAccess_fatal (addr : Word) (dir : Direction) : (raiseIllegalAccess addr dir s).fatal = (s.fatal || s.params.strictAccess) := rfl
@[simp] theorem raiseIllegalAccess_params (addr : Word) (dir : Direction) : (raiseIllegalAccess addr dir s).params = s.params := rfl

@[simp] theorem illegalOpcode_a (op : Byte) : (illegalOpcode op s).a = s.a := rfl
@[simp] theorem illegalOpcode_f (op : Byte) : (illegalOpcode op s).f = s.f := rfl
@[simp] theorem illegalOpcode_b (op : Byte) : (illegalOpcode op s).b = s.b := rfl
@[simp] theorem illegalOpcode_c (op : Byte) : (illegalOpcode op s).c = s.c := rfl
@[simp] theorem illegalOpcode_d (op : Byte) : (illegalOpcode op s).d = s.d := rfl
@[simp] theorem illegalOpcode_e (op : Byte) : (illegalOpcode op s).e = s.e := rfl
@[simp] theorem illegalOpcode_h (op : Byte) : (illegalOpcode op s).h = s.h := rfl
@[simp] theorem illegalOpcode_l (op : Byte) : (illegalOpcode op s).l = s.l := rfl
@[simp] theorem illegalOpcode_sp (op : Byte) : (illegalOpcode op s).sp = s.sp := rfl
@[simp] theorem illegalOpcode_pc (op : Byte) : (illegalOpcode op s).pc = s.pc := rfl
@[simp] theorem illegalOpcode_ime (op : Byte) : (illegalOpcode op s).ime = s.ime := rfl
@[simp] theorem illegalOpcode_imePending (op : Byte) : (illegalOpcode op s).imePending = s.imePending := rfl
@[simp] theorem illegalOpcode_halted (op : Byte) : (illegalOpcode op s).halted = (s.halted || s.params.strictOpcode) := rfl
@[simp] theorem illegalOpcode_stopped (op : Byte) : (illegalOpcode op s).stopped = s.stopped := rfl
@[simp] theorem illegalOpcode_mem (op : Byte) : (illegalOpcode op s).mem = s.mem := rfl
@[simp] theorem illegalOpcode_diag (op : Byte) : (illegalOpcode op s).diag = s.diag ++ [.illegalOpcode op (s.pc - 1#16)] := rfl
@[simp] theorem illegalOpcode_ticks (op : Byte) : (illegalOpcode op s).ticks = s.ticks := rfl
@[simp] theorem illegalOpcode_fatal (op : Byte) : (illegalOpcode op s).fatal = s.fatal := rfl
@[simp] theorem illegalOpcode_params (op : Byte) : (illegalOpcode op s).params = s.params := rfl

@[simp] theorem idleStep_a : (idleStep s).a = s.a := rfl
@[simp] theorem idleStep_f : (idleStep s).f = s.f := rfl
@[simp] theorem idleStep_b : (idleStep s).b = s.b := rfl
@[simp] theorem idleStep_c : (idleStep s).c = s.c := rfl
@[simp] theorem idleStep_d : (idleStep s).d = s.d := rfl
@[simp] theorem idleStep_e : (idleStep s).e = s.e := rfl
@[simp] theorem idleStep_h : (idleStep s).h = s.h := rfl
@[simp] theorem idleStep_l : (idleStep s).l = s.l := rfl
@[simp] theorem idleStep_sp : (idleStep s).sp = s.sp := rfl
@[simp] theorem idleStep_pc : (idleStep s).pc = s.pc := rfl
@[simp] theorem idleStep_ime : (idleStep s).ime = s.ime := rfl
@[simp] theorem idleStep_imePending : (idleStep s).imePending = s.imePending := rfl
@[simp] theorem idleStep_halted : (idleStep s).halted = s.halted := rfl
@[simp] theorem idleStep_stopped : (idleStep s).stopped = s.stopped := rfl
@[simp] theorem idleStep_mem : (idleStep s).mem = s.mem := rfl
@[simp] theorem idleStep_diag : (idleStep s).diag = s.diag := rfl
@[simp] theorem idleStep_ticks : (idleStep s).ticks = s.ticks + 4 := rfl
@[simp] theorem idleStep_fatal : (idleStep s).fatal = s.fatal := rfl
@[simp] theorem idleStep_params : (idleStep s).params = s.params := rfl

@[simp] theorem chargeRead_a (addr : Word) : (chargeRead addr s).a = s.a := by unfold chargeRead; split <;> rfl
@[simp] theorem chargeRead_f (addr : Word) : (chargeRead addr s).f = s.f := by unfold chargeRead; split <;> rfl
@[simp] theorem chargeRead_b (addr : Word) : (chargeRead addr s).b = s.b := by unfold chargeRead; split <;> rfl
@[simp] theorem chargeRead_c (addr : Word) : (chargeRead addr s).c = s.c := by unfold chargeRead; split <;> rfl
@[simp] theorem chargeRead_d (addr : Word) : (chargeRead addr s).d = s.d := by unfold chargeRead; split <;> rfl
@[simp] theorem chargeRead_e (addr : Word) : (chargeRead addr s).e = s.e := by unfold chargeRead; split <;> rfl
@[simp] theorem chargeRead_h (addr : Word) : (chargeRead addr s).h = s.h := by unfold chargeRead; split <;> rfl
@[simp] theorem chargeRead_l (addr : Word) : (chargeRead addr s).l = s.l := by unfold chargeRead; split <;> rfl
@[simp] theorem chargeRead_sp (addr : Word) : (chargeRead addr s).sp = s.sp := by unfold chargeRead; split <;> rfl
@[simp] theorem chargeRead_pc (addr : Word) : (chargeRead addr s).pc = s.pc := by unfold chargeRead; split <;> rfl
@[simp] theorem chargeRead_ime (addr : Word) : (chargeRead addr s).ime = s.ime := by unfold chargeRead; split <;> rfl
@[simp] theorem chargeRead_imePending (addr : Word) : (chargeRead addr s).imePending = s.imePending := by unfold chargeRead; split <;> rfl
@[simp] theorem chargeRead_halted (addr : Word) : (chargeRead addr s).halted = s.halted := by unfold chargeRead; split <;> rfl
@[simp] theorem chargeRead_stopped (addr : Word) : (chargeRead addr s).stopped = s.stopped := by unfold chargeRead; split <;> rfl
@[simp] theorem chargeRead_mem (addr : Word) : (chargeRead addr s).mem = s.mem := by unfold chargeRead; split <;> rfl
@[simp] theorem chargeRead_ticks (addr : Word) : (chargeRead addr s).ticks = s.ticks + 4 := by unfold chargeRead; split <;> rfl
@[simp] theorem chargeRead_params (addr : Word) : (chargeRead addr s).params = s.params := by unfold chargeRead; split <;> rfl

@[simp] theorem writeByte_a (addr : Word) (v : Byte) : (writeByte addr v s).a = s.a := by unfold writeByte cartWrite; (repeat' split) <;> rfl
@[simp] theorem writeByte_f (addr : Word) (v : Byte) : (writeByte addr v s).f = s.f := by unfold writeByte cartWrite; (repeat' split) <;> rfl
@[simp] theorem writeByte_b (addr : Word) (v : Byte) : (writeByte addr v s).b = s.b := by unfold writeByte cartWrite; (repeat' split) <;> rfl
@[simp] theorem writeByte_c (addr : Word) (v : Byte) : (writeByte addr v s).c = s.c := by unfold writeByte cartWrite; (repeat' split) <;> rfl
@[simp] theorem writeByte_d (addr : Word) (v : Byte) : (writeByte addr v s).d = s.d := by unfold writeByte cartWrite; (repeat' split) <;> rfl
@[simp] theorem writeByte_e (addr : Word) (v : Byte) : (writeByte addr v s).e = s.e := by unfold writeByte cartWrite; (repeat' split) <;> rfl
@[simp] theorem writeByte_h (addr : Word) (v : Byte) : (writeByte addr v s).h = s.h := by unfold writeByte cartWrite; (repeat' split) <;> rfl
@[simp] theorem writeByte_l (addr : Word) (v : Byte) : (writeByte addr v s).l = s.l := by unfold writeByte cartWrite; (repeat' split) <;> rfl
@[simp] theorem writeByte_sp (addr : Word) (v : Byte) : (writeByte addr v s).sp = s.sp := by unfold writeByte cartWrite; (repeat' split) <;> rfl
@[simp] theorem writeByte_pc (addr : Word) (v : Byte) : (writeByte addr v s).pc = s.pc := by unfold writeByte cartWrite; (repeat' split) <;> rfl
@[simp] theorem writeByte_ime (addr : Word) (v : Byte) : (writeByte addr v s).ime = s.ime := by unfold writeByte cartWrite; (repeat' split) <;> rfl
@[simp] theorem writeByte_imePending (addr : Word) (v : Byte) : (writeByte addr v s).imePending = s.imePending := by unfold writeByte cartWrite; (repeat' split) <;> rfl
@[simp] theorem writeByte_halted (addr : Word) (v : Byte) : (writeByte addr v s).halted = s.halted := by unfold writeByte cartWrite; (repeat' split) <;> rfl
@[simp] theorem writeByte_stopped (addr : Word) (v : Byte) : (writeByte addr v s).stopped = s.stopped := by unfold writeByte cartWrite; (repeat' split) <;> rfl
@[simp] theorem writeByte_ticks (addr : Word) (v : Byte) : (writeByte addr v s).ticks = s.ticks + 4 := by unfold writeByte cartWrite; (repeat' split) <;> rfl
@[simp] theorem writeByte_params (addr : Word) (v : Byte) : (writeByte addr v s).params = s.params := by unfold writeByte cartWrite; (repeat' split) <;> rfl

@[simp] theorem finishStep_a (pend : Bool) : (finishStep pend s).a = s.a := by unfold finishStep; split <;> rfl
@[simp] theorem finishStep_f (pend : Bool) : (finishStep pend s).f = s.f := by unfold finishStep; split <;> rfl
@[simp] theorem finishStep_b (pend : Bool) : (finishStep pend s).b = s.b := by unfold finishStep; split <;> rfl
@[simp] theorem finishStep_c (pend : Bool) : (finishStep pend s).c = s.c := by unfold finishStep; split <;> rfl
@[simp] theorem finishStep_d (pend : Bool) : (finishStep pend s).d = s.d := by unfold finishStep; split <;> rfl
@[simp] theorem finishStep_e (pend : Bool) : (finishStep pend s).e = s.e := by unfold finishStep; split <;> rfl
@[simp] theorem finishStep_h (pend : Bool) : (finishStep pend s).h = s.h := by unfold finishStep; split <;> rfl
@[simp] theorem finishStep_l (pend : Bool) : (finishStep pend s).l = s.l := by unfold finishStep; split <;> rfl
@[simp] theorem finishStep_sp (pend : Bool) : (finishStep pend s).sp = s.sp := by unfold finishStep; split <;> rfl
@[simp] theorem finishStep_pc (pend : Bool) : (finishStep pend s).pc = s.pc := by unfold finishStep; split <;> rfl
@[simp] theorem finishStep_halted (pend : Bool) : (finishStep pend s).halted = s.halted := by unfold finishStep; split <;> rfl
@[simp] theorem finishStep_stopped (pend : Bool) : (finishStep pend s).stopped = s.stopped := by unfold finishStep; split <;> rfl
@[simp] theorem finishStep_mem (pend : Bool) : (finishStep pend s).mem = s.mem := by unfold finishStep; split <;> rfl
@[simp] theorem finishStep_diag (pend : Bool) : (finishStep pend s).diag = s.diag := by unfold finishStep; split <;> rfl
@[simp] theorem finishStep_ticks (pend : Bool) : (finishStep pend s).ticks = s.ticks := by unfold finishStep; split <;> rfl
@[simp] theorem finishStep_fatal (pend : Bool) : (finishStep pend s).fatal = s.fatal := by unfold finishStep; split <;> rfl
@[simp] theorem finishStep_params (pend : Bool) : (finishStep pend s).params = s.params := by unfold finishStep; split <;> rfl

/-! Reading back what was written. -/

@[simp] theorem getReg8_setReg8 (r : Reg8) (v : Byte) : (s.setReg8 r v).getReg8 r = v := by cases r <;> rfl

theorem getReg8_setReg8_of_ne {r r' : Reg8} (v : Byte) (h : r' ≠ r) : (s.setReg8 r v).getReg8 r' = s.getReg8 r' := by
  cases r <;> cases r' <;> first | rfl | exact absurd rfl h

@[simp] theorem setReg8_a (r : Reg8) (v : Byte) : (s.setReg8 r v).a = if r = .a then v else s.a := by cases r <;> rfl
@[simp] theorem setReg8_b (r : Reg8) (v : Byte) : (s.setReg8 r v).b = if r = .b then v else s.b := by cases r <;> rfl
@[simp] theorem setReg8_c (r : Reg8) (v : Byte) : (s.setReg8 r v).c = if r = .c then v else s.c := by cases r <;> rfl
@[simp] theorem setReg8_d (r : Reg8) (v : Byte) : (s.setReg8 r v).d = if r = .d then v else s.d := by cases r <;> rfl
@[simp] theorem setReg8_e (r : Reg8) (v : Byte) : (s.setReg8 r v).e = if r = .e then v else s.e := by cases r <;> rfl
@[simp] theorem setReg8_h (r : Reg8) (v : Byte) : (s.setReg8 r v).h = if r = .h then v else s.h := by cases r <;> rfl
@[simp] theorem setReg8_l (r : Reg8) (v : Byte) : (s.setReg8 r v).l = if r = .l then v else s.l := by cases r <;> rfl

@[simp] theorem getReg8_setPc (r : Reg8) (v : Word) : (s.setPc v).getReg8 r = s.getReg8 r := by cases r <;> rfl

@[simp] theorem getReg8_setSp (r : Reg8) (v : Word) : (s.setSp v).getReg8 r = s.getReg8 r := by cases r <;> rfl

@[simp] theorem getReg8_tick (r : Reg8) (n : Nat) : (s.tick n).getReg8 r = s.getReg8 r := by cases r <;> rfl

@[simp] theorem getReg8_setFlags (r : Reg8) (fl : Flags) : (s.setFlags fl).getReg8 r = s.getReg8 r := by cases r <;> rfl

/-- Joining the two halves of a word gives the word (00_scope R7). -/
@[simp] theorem joinBytes_hiByte_loByte (v : Word) : joinBytes (hiByte v) (loByte v) = v := by
  apply BitVec.eq_of_toNat_eq
  have h := v.isLt
  simp only [joinBytes, hiByte, loByte, BitVec.toNat_append, BitVec.extractLsb'_toNat]
  rw [Nat.shiftLeft_eq, ← Nat.shiftLeft_eq, ← Nat.shiftLeft_add_eq_or_of_lt (by omega)]
  simp only [Nat.shiftRight_eq_div_pow, Nat.shiftLeft_eq]
  omega

@[simp] theorem hiByte_joinBytes (hi lo : Byte) : hiByte (joinBytes hi lo) = hi := by
  apply BitVec.eq_of_toNat_eq
  have h1 := hi.isLt
  have h2 := lo.isLt
  simp only [joinBytes, hiByte, BitVec.toNat_append, BitVec.extractLsb'_toNat]
  rw [← Nat.shiftLeft_add_eq_or_of_lt (by omega)]
  simp only [Nat.shiftRight_eq_div_pow, Nat.shiftLeft_eq]
  omega

@[simp] theorem loByte_joinBytes (hi lo : Byte) : loByte (joinBytes hi lo) = lo := by
  apply BitVec.eq_of_toNat_eq
  have h1 := hi.isLt
  have h2 := lo.isLt
  simp only [joinBytes, loByte, BitVec.toNat_append, BitVec.extractLsb'_toNat]
  rw [← Nat.shiftLeft_add_eq_or_of_lt (by omega)]
  simp only [Nat.shiftRight_eq_div_pow, Nat.shiftLeft_eq]
  omega

@[simp] theorem setReg16_eq_setBc (v : Word) : s.setReg16 .bc v = s.setBc v := rfl
@[simp] theorem setReg16_eq_setDe (v : Word) : s.setReg16 .de v = s.setDe v := rfl
@[simp] theorem setReg16_eq_setHl (v : Word) : s.setReg16 .hl v = s.setHl v := rfl
@[simp] theorem setReg16_eq_setSp (v : Word) : s.setReg16 .sp v = s.setSp v := rfl
@[simp] theorem setPair_eq_setBc (v : Word) : s.setPair .bc v = s.setBc v := rfl
@[simp] theorem setPair_eq_setDe (v : Word) : s.setPair .de v = s.setDe v := rfl
@[simp] theorem setPair_eq_setHl (v : Word) : s.setPair .hl v = s.setHl v := rfl

/-- A pair as a number (10_state R23). -/
theorem toNat_joinBytes (hi lo : Byte) : (joinBytes hi lo).toNat = hi.toNat * 256 + lo.toNat := by
  simp only [joinBytes, BitVec.toNat_append]
  rw [← Nat.shiftLeft_add_eq_or_of_lt lo.isLt, Nat.shiftLeft_eq]

@[simp] theorem hl_setHl (v : Word) : (s.setHl v).hl = v := by simp [State.hl]

@[simp] theorem bc_setBc (v : Word) : (s.setBc v).bc = v := by simp [State.bc]

@[simp] theorem de_setDe (v : Word) : (s.setDe v).de = v := by simp [State.de]

@[simp] theorem getReg16_setReg16 (rr : Reg16) (v : Word) : (s.setReg16 rr v).getReg16 rr = v := by
  cases rr <;> simp [State.setReg16, State.getReg16]

@[simp] theorem getPair_setPair (rr : StackPair) (v : Word) : (s.setPair rr v).getPair rr = v := by
  cases rr <;> simp [State.setPair, State.getPair]

/-! The flag byte (10_state R21). -/

/-- The masking of `setF` changes nothing in a flag byte. -/
@[simp] theorem byte_and_mask (fl : Flags) : fl.byte &&& 0xF0#8 = fl.byte := by
  obtain ⟨z, n, h, c⟩ := fl
  revert z n h c
  decide

@[simp] theorem flagZ_setFlags (fl : Flags) : (s.setFlags fl).flagZ = fl.z := by
  obtain ⟨z, n, h, c⟩ := fl
  simp only [State.flagZ, setFlags_f]
  revert z n h c
  decide

@[simp] theorem flagN_setFlags (fl : Flags) : (s.setFlags fl).flagN = fl.n := by
  obtain ⟨z, n, h, c⟩ := fl
  simp only [State.flagN, setFlags_f]
  revert z n h c
  decide

@[simp] theorem flagH_setFlags (fl : Flags) : (s.setFlags fl).flagH = fl.h := by
  obtain ⟨z, n, h, c⟩ := fl
  simp only [State.flagH, setFlags_f]
  revert z n h c
  decide

@[simp] theorem flagC_setFlags (fl : Flags) : (s.setFlags fl).flagC = fl.c := by
  obtain ⟨z, n, h, c⟩ := fl
  simp only [State.flagC, setFlags_f]
  revert z n h c
  decide

/-- What is written to F through the mask has a clear low nibble. -/
@[simp] theorem and_mask_low (v : Byte) : (v &&& 0xF0#8) &&& 0x0F#8 = 0#8 := by
  rw [BitVec.and_assoc, show (0xF0#8 &&& 0x0F#8) = 0#8 from rfl, BitVec.and_zero]

end Sys2Proof.Machine
end

