-- ==== Sys2Proof/Laws/Ops.lean ====
section
/-! SUPPORT. The spec lemmas of the shared operations: what a bus access, a push, a pop and a fetch answer, what
they leave alone, and what the invariant needs of them. Provers cite these and do not unfold the operations. -/

namespace Sys2Proof.Machine

variable {s t : State} {addr : Word} {v : Byte}

/-! Where an access does not stop the step. -/

/-- With STRICT_ACCESS off no access stops the step (20_memory R54). -/
theorem accessStops_of_lenient (h : s.params.strictAccess = false) (addr : Word) : accessStops s addr = false := by
  simp [accessStops, h]

/-- A legal access never stops the step. -/
theorem accessStops_of_legal (h : (regionOf addr).legal = true) : accessStops s addr = false := by
  simp [accessStops, h]

/-- An access that stops the step is illegal. -/
theorem legal_of_stop (h : accessStops s addr = true) : (regionOf addr).legal = false := by
  simp only [accessStops, Bool.and_eq_true, Bool.not_eq_true'] at h
  exact h.2

/-- Whether an access stops the step depends on the parameters alone. -/
theorem accessStops_congr (h : t.params = s.params) (addr : Word) : accessStops t addr = accessStops s addr := by
  simp [accessStops, h]

@[simp] theorem accessStops_chargeRead (x : Word) : accessStops (chargeRead x s) addr = accessStops s addr :=
  accessStops_congr (by simp) addr

@[simp] theorem accessStops_writeByte (x : Word) (v : Byte) : accessStops (writeByte x v s) addr = accessStops s addr :=
  accessStops_congr (by simp) addr

@[simp] theorem accessStops_setPc (w : Word) : accessStops (s.setPc w) addr = accessStops s addr := rfl

@[simp] theorem accessStops_setSp (w : Word) : accessStops (s.setSp w) addr = accessStops s addr := rfl

@[simp] theorem accessStops_tick (n : Nat) : accessStops (s.tick n) addr = accessStops s addr := rfl

@[simp] theorem accessStops_internal (n : Nat) : accessStops (internal n s) addr = accessStops s addr := rfl

/-! Reads and writes. -/

theorem readThen_of_go (h : accessStops s addr = false) (k : Byte → State → Result) :
    readThen addr s k = k (readByte s addr) (chargeRead addr s) := by
  rw [readThen, if_neg (by simp [h])]

theorem readThen_of_stop (h : accessStops s addr = true) (k : Byte → State → Result) :
    readThen addr s k = .next (chargeRead addr s) := by
  rw [readThen, if_pos h]

/-- Everything a read can do. -/
theorem readThen_cases {k : Byte → State → Result} {o : Result} (h : readThen addr s k = o) :
    (accessStops s addr = true ∧ o = .next (chargeRead addr s)) ∨
      (accessStops s addr = false ∧ k (readByte s addr) (chargeRead addr s) = o) := by
  cases hs : accessStops s addr
  · exact .inr ⟨rfl, by rw [← h, readThen_of_go hs]⟩
  · exact .inl ⟨rfl, by rw [← h, readThen_of_stop hs]⟩

theorem writeThen_of_go (h : accessStops s addr = false) (k : State → Result) :
    writeThen addr v s k = k (writeByte addr v s) := by
  rw [writeThen, if_neg (by simp [h])]

theorem writeThen_of_stop (h : accessStops s addr = true) (k : State → Result) :
    writeThen addr v s k = .next (writeByte addr v s) := by
  rw [writeThen, if_pos h]

/-- Everything a write can do. -/
theorem writeThen_cases {k : State → Result} {o : Result} (h : writeThen addr v s k = o) :
    (accessStops s addr = true ∧ o = .next (writeByte addr v s)) ∨
      (accessStops s addr = false ∧ k (writeByte addr v s) = o) := by
  cases hs : accessStops s addr
  · exact .inr ⟨rfl, by rw [← h, writeThen_of_go hs]⟩
  · exact .inl ⟨rfl, by rw [← h, writeThen_of_stop hs]⟩

theorem chargeRead_diag : (chargeRead addr s).diag = s.diag ++ accessRecord addr .read := by
  unfold chargeRead accessRecord
  split <;> simp

theorem writeByte_diag : (writeByte addr v s).diag = s.diag ++ accessRecord addr .write := by
  unfold writeByte accessRecord cartWrite
  (repeat' split) <;> simp_all [Region.legal, raiseIllegalAccess, State.log]

theorem chargeRead_fatal : (chargeRead addr s).fatal = (s.fatal || accessStops s addr) := by
  unfold chargeRead accessStops
  split <;> simp_all

theorem writeByte_fatal : (writeByte addr v s).fatal = (s.fatal || accessStops s addr) := by
  unfold writeByte accessStops cartWrite
  (repeat' split) <;> simp_all [Region.legal]

/-- A read that does not stop the step leaves `fatal`. -/
theorem chargeRead_fatal_of_go (h : accessStops s addr = false) : (chargeRead addr s).fatal = s.fatal := by
  simp [chargeRead_fatal, h]

theorem writeByte_fatal_of_go (h : accessStops s addr = false) : (writeByte addr v s).fatal = s.fatal := by
  simp [writeByte_fatal, h]

/-- A read changes the log, the tick count and `fatal` only. -/
theorem chargeRead_eq :
    chargeRead addr s =
      { s with
        diag := s.diag ++ accessRecord addr .read
        ticks := s.ticks + 4
        fatal := s.fatal || accessStops s addr } := by
  rw [← chargeRead_diag, ← chargeRead_fatal]
  unfold chargeRead
  split <;> rfl

/-- A write changes the memory, the log, the tick count and `fatal` only. -/
theorem writeByte_eq :
    writeByte addr v s =
      { s with
        mem := (writeByte addr v s).mem
        diag := s.diag ++ accessRecord addr .write
        ticks := s.ticks + 4
        fatal := s.fatal || accessStops s addr } := by
  rw [← writeByte_diag (v := v), ← writeByte_fatal (v := v)]
  unfold writeByte cartWrite
  (repeat' split) <;> rfl

/-! Reading bytes of a changed state. -/

/-- Reading depends on the memory and the parameters alone. -/
theorem readByte_congr (hm : t.mem = s.mem) (hp : t.params = s.params) (addr : Word) :
    readByte t addr = readByte s addr := by
  simp [readByte, ioRead, hm, hp]

@[simp] theorem readByte_chargeRead (x : Word) : readByte (chargeRead x s) addr = readByte s addr :=
  readByte_congr (by simp) (by simp) addr

@[simp] theorem readByte_setPc (w : Word) : readByte (s.setPc w) addr = readByte s addr := rfl

@[simp] theorem readByte_setSp (w : Word) : readByte (s.setSp w) addr = readByte s addr := rfl

@[simp] theorem readByte_internal (n : Nat) : readByte (internal n s) addr = readByte s addr := rfl

@[simp] theorem readByte_setFlags (fl : Flags) : readByte (s.setFlags fl) addr = readByte s addr := rfl

@[simp] theorem readByte_setIme (b : Bool) : readByte (s.setIme b) addr = readByte s addr := rfl

@[simp] theorem readByte_setImePending (b : Bool) : readByte (s.setImePending b) addr = readByte s addr := rfl

@[simp] theorem readByte_setHalted (b : Bool) : readByte (s.setHalted b) addr = readByte s addr := rfl

@[simp] theorem readByte_setStopped (b : Bool) : readByte (s.setStopped b) addr = readByte s addr := rfl

@[simp] theorem readByte_setFatal (b : Bool) : readByte (s.setFatal b) addr = readByte s addr := rfl

@[simp] theorem readByte_tick (n : Nat) : readByte (s.tick n) addr = readByte s addr := rfl

@[simp] theorem readByte_setBc (w : Word) : readByte (s.setBc w) addr = readByte s addr := rfl

@[simp] theorem readByte_setDe (w : Word) : readByte (s.setDe w) addr = readByte s addr := rfl

@[simp] theorem readByte_setHl (w : Word) : readByte (s.setHl w) addr = readByte s addr := rfl

@[simp] theorem readByte_setAf (w : Word) : readByte (s.setAf w) addr = readByte s addr := rfl

@[simp] theorem readByte_setReg16 (rr : Reg16) (w : Word) : readByte (s.setReg16 rr w) addr = readByte s addr :=
  readByte_congr (by simp) (by simp) addr

@[simp] theorem readByte_setPair (rr : StackPair) (w : Word) : readByte (s.setPair rr w) addr = readByte s addr :=
  readByte_congr (by simp) (by simp) addr

@[simp] theorem readByte_setReg8 (r : Reg8) (w : Byte) : readByte (s.setReg8 r w) addr = readByte s addr :=
  readByte_congr (by simp) (by simp) addr

/-- A write leaves every other address alone (20_memory R53). -/
theorem readByte_writeByte_of_ne {x : Word} (h : x ≠ addr) : readByte (writeByte addr v s) x = readByte s x := by
  have hn : x.toNat ≠ addr.toNat := fun he => h (BitVec.eq_of_toNat_eq he)
  have hg : ((writeByte addr v s).mem).get x.toNat = s.mem.get x.toNat := by
    unfold writeByte cartWrite
    (repeat' split) <;> simp [Memory.get_set_of_ne _ _ hn]
  simp [readByte, ioRead, hg]

/-- Reading back the byte just written (20_memory R63). -/
theorem readByte_writeByte_same (hm : s.mem.wf = true) (h : readsBack s addr = true) :
    readByte (writeByte addr v s) addr = v := by
  have hget := Memory.get_set_same addr.toNat v hm
  simp only [readsBack, keepsByte, Bool.and_eq_true, Bool.or_eq_true, decide_eq_true_eq] at h
  unfold readByte ioRead writeByte cartWrite
  cases hr : regionOf addr <;> simp_all

/-! The canonical form of memory. -/

/-- A write keeps the canonical form. -/
theorem wf_writeByte (hm : s.mem.wf = true) : (writeByte addr v s).mem.wf = true := by
  cases hr : regionOf addr <;> unfold writeByte cartWrite <;> simp only [hr]
  case cartridge =>
    split
    · exact Memory.wf_set v hm (isStorage_of_legal (by rw [hr]; rfl))
    · exact hm
  all_goals first
    | exact Memory.wf_set v hm (isStorage_of_legal (by rw [hr]; rfl))
    | exact hm

/-! The invariant (Safety.lean). -/

@[simp] theorem any_accessRecord (dir : Direction) :
    (accessRecord addr dir).any Diag.isAccess = !(regionOf addr).legal := by
  unfold accessRecord
  split <;> simp_all [Diag.isAccess]

/-- A read keeps the invariant. -/
theorem inv_chargeRead (h : s.Inv) : (chargeRead addr s).Inv := by
  obtain ⟨hf, hm, hp, hx⟩ := h
  refine ⟨by simpa [State.flagNibbleClear] using hf, by simpa using hm, by simpa using hp, ?_⟩
  simp only [State.fatalExact, decide_eq_true_eq] at hx ⊢
  rw [chargeRead_fatal, chargeRead_diag, List.any_append, any_accessRecord, chargeRead_params, hx, accessStops]
  cases s.params.strictAccess <;> simp

/-- A write keeps the invariant. -/
theorem inv_writeByte (h : s.Inv) : (writeByte addr v s).Inv := by
  obtain ⟨hf, hm, hp, hx⟩ := h
  refine ⟨by simpa [State.flagNibbleClear] using hf, wf_writeByte hm, by simpa using hp, ?_⟩
  simp only [State.fatalExact, decide_eq_true_eq] at hx ⊢
  rw [writeByte_fatal, writeByte_diag, List.any_append, any_accessRecord, writeByte_params, hx, accessStops]
  cases s.params.strictAccess <;> simp

/-- The invariant reads F, memory, the parameters, the log and `fatal` only. -/
theorem State.Inv.congr (h : s.Inv) (hf : t.f = s.f) (hm : t.mem = s.mem) (hp : t.params = s.params)
    (hd : t.diag = s.diag) (hx : t.fatal = s.fatal) : t.Inv := by
  obtain ⟨h1, h2, h3, h4⟩ := h
  exact ⟨by simpa [State.flagNibbleClear, hf] using h1, by rw [hm]; exact h2, by rw [hp]; exact h3,
    by simpa [State.fatalExact, hp, hd, hx] using h4⟩

/-- Writing F through its mask keeps the invariant (10_state R21). -/
theorem inv_setFlags (h : s.Inv) (fl : Flags) : (s.setFlags fl).Inv := by
  obtain ⟨h1, h2, h3, h4⟩ := h
  exact ⟨by simp only [State.flagNibbleClear, setFlags_f, and_mask_low]; rfl, h2, h3, h4⟩

/-! Fetch, push and pop. -/

@[simp] theorem chargeRead_setPc (w : Word) : chargeRead addr (s.setPc w) = (chargeRead addr s).setPc w := by
  unfold chargeRead
  split <;> rfl

@[simp] theorem chargeRead_setSp (w : Word) : chargeRead addr (s.setSp w) = (chargeRead addr s).setSp w := by
  unfold chargeRead
  split <;> rfl

@[simp] theorem writeByte_setSp (w : Word) : writeByte addr v (s.setSp w) = (writeByte addr v s).setSp w := by
  simp only [writeByte, cartWrite, tick_params, setSp_params]
  (repeat' split) <;> rfl

@[simp] theorem writeByte_setPc (w : Word) : writeByte addr v (s.setPc w) = (writeByte addr v s).setPc w := by
  simp only [writeByte, cartWrite, tick_params, setPc_params]
  (repeat' split) <;> rfl

@[simp] theorem setSp_setSp (v w : Word) : (s.setSp v).setSp w = s.setSp w := rfl

@[simp] theorem setPc_setPc (v w : Word) : (s.setPc v).setPc w = s.setPc w := rfl

theorem fetch8Then_of_go (h : accessStops s s.pc = false) (k : Byte → State → Result) :
    fetch8Then s k = k (readByte s s.pc) ((chargeRead s.pc s).setPc (s.pc + 1#16)) := by
  rw [fetch8Then, readThen_of_go h]
  simp

theorem fetch8Then_of_stop (h : accessStops s s.pc = true) (k : Byte → State → Result) :
    fetch8Then s k = .next (chargeRead s.pc s) := by
  rw [fetch8Then, readThen_of_stop h]

/-- Everything a byte fetch can do. -/
theorem fetch8Then_cases {k : Byte → State → Result} {o : Result} (h : fetch8Then s k = o) :
    (accessStops s s.pc = true ∧ o = .next (chargeRead s.pc s)) ∨
      (accessStops s s.pc = false ∧ k (readByte s s.pc) ((chargeRead s.pc s).setPc (s.pc + 1#16)) = o) := by
  cases h1 : accessStops s s.pc
  · exact .inr ⟨rfl, by rw [← h, fetch8Then_of_go h1]⟩
  · exact .inl ⟨rfl, by rw [← h, fetch8Then_of_stop h1]⟩

theorem sub_one_sub_one (w : Word) : w - 1#16 - 1#16 = w - 2#16 := by
  rw [BitVec.sub_sub]
  rfl

theorem add_one_add_one (w : Word) : w + 1#16 + 1#16 = w + 2#16 := by
  rw [BitVec.add_assoc]
  rfl

/-- The state after both bytes of `Push16(v)` (45_stack R220). -/
def pushed (v : Word) (s : State) : State :=
  (writeByte (s.sp - 2#16) (loByte v) (writeByte (s.sp - 1#16) (hiByte v) s)).setSp (s.sp - 2#16)

/-- The state after the first byte of `Push16(v)`. -/
def pushedHigh (v : Word) (s : State) : State := (writeByte (s.sp - 1#16) (hiByte v) s).setSp (s.sp - 1#16)

/-- Everything `Push16` can do. -/
theorem push16Then_cases {v : Word} {k : State → Result} {o : Result} (h : push16Then v s k = o) :
    (accessStops s (s.sp - 1#16) = true ∧ o = .next (pushedHigh v s)) ∨
      (accessStops s (s.sp - 1#16) = false ∧ accessStops s (s.sp - 2#16) = true ∧ o = .next (pushed v s)) ∨
      (accessStops s (s.sp - 1#16) = false ∧ accessStops s (s.sp - 2#16) = false ∧ k (pushed v s) = o) := by
  simp only [push16Then, pushByteThen] at h
  rcases writeThen_cases h with ⟨h1, ho⟩ | ⟨h1, h⟩
  · exact .inl ⟨by simpa using h1, by simpa [pushedHigh] using ho⟩
  · rcases writeThen_cases h with ⟨h2, ho⟩ | ⟨h2, h⟩
    · exact .inr (.inl ⟨by simpa using h1, by simpa [sub_one_sub_one] using h2,
        by simpa [pushed, sub_one_sub_one] using ho⟩)
    · exact .inr (.inr ⟨by simpa using h1, by simpa [sub_one_sub_one] using h2,
        by simpa [pushed, sub_one_sub_one] using h⟩)

/-- `Push16` where neither byte stops the step. -/
theorem push16Then_of_go (v : Word) (h1 : accessStops s (s.sp - 1#16) = false)
    (h2 : accessStops s (s.sp - 2#16) = false) (k : State → Result) : push16Then v s k = k (pushed v s) := by
  rcases push16Then_cases (rfl : push16Then v s k = _) with ⟨h, _⟩ | ⟨_, h, _⟩ | ⟨_, _, h⟩
  · simp [h1] at h
  · simp [h2] at h
  · exact h.symm

/-- `Push16` where its first byte, the high one, stops the step. -/
theorem push16Then_of_stop_high (v : Word) (h : accessStops s (s.sp - 1#16) = true) (k : State → Result) :
    push16Then v s k = .next (pushedHigh v s) := by
  rcases push16Then_cases (rfl : push16Then v s k = _) with ⟨_, ho⟩ | ⟨h1, _⟩ | ⟨h1, _⟩
  · exact ho
  · simp [h] at h1
  · simp [h] at h1

/-- `Push16` where its second byte, the low one, stops the step. -/
theorem push16Then_of_stop_low (v : Word) (h1 : accessStops s (s.sp - 1#16) = false)
    (h2 : accessStops s (s.sp - 2#16) = true) (k : State → Result) : push16Then v s k = .next (pushed v s) := by
  rcases push16Then_cases (rfl : push16Then v s k = _) with ⟨h, _⟩ | ⟨_, _, ho⟩ | ⟨_, h, _⟩
  · simp [h1] at h
  · exact ho
  · simp [h2] at h

/-- The state after both bytes of `Pop16` (45_stack R221). -/
def popped (s : State) : State := (chargeRead (s.sp + 1#16) (chargeRead s.sp s)).setSp (s.sp + 2#16)

/-- The word on the stack (45_stack R221). -/
def stackWord (s : State) : Word := joinBytes (readByte s (s.sp + 1#16)) (readByte s s.sp)

/-- Everything `Pop16` can do. -/
theorem pop16Then_cases {k : Word → State → Result} {o : Result} (h : pop16Then s k = o) :
    (accessStops s s.sp = true ∧ o = .next (chargeRead s.sp s)) ∨
      (accessStops s s.sp = false ∧ accessStops s (s.sp + 1#16) = true ∧
        o = .next ((chargeRead (s.sp + 1#16) (chargeRead s.sp s)).setSp (s.sp + 1#16))) ∨
      (accessStops s s.sp = false ∧ accessStops s (s.sp + 1#16) = false ∧ k (stackWord s) (popped s) = o) := by
  simp only [pop16Then, popByteThen] at h
  rcases readThen_cases h with ⟨h1, ho⟩ | ⟨h1, h⟩
  · exact .inl ⟨h1, ho⟩
  · rcases readThen_cases h with ⟨h2, ho⟩ | ⟨h2, h⟩
    · exact .inr (.inl ⟨h1, by simpa using h2, by simpa using ho⟩)
    · exact .inr (.inr ⟨h1, by simpa using h2, by simpa [popped, stackWord, add_one_add_one] using h⟩)

/-- `Pop16` where neither byte stops the step. -/
theorem pop16Then_of_go (h1 : accessStops s s.sp = false) (h2 : accessStops s (s.sp + 1#16) = false)
    (k : Word → State → Result) : pop16Then s k = k (stackWord s) (popped s) := by
  rcases pop16Then_cases (rfl : pop16Then s k = _) with ⟨h, _⟩ | ⟨_, h, _⟩ | ⟨_, _, h⟩
  · simp [h1] at h
  · simp [h2] at h
  · exact h.symm

/-- `Pop16` where its first byte, the low one, stops the step. -/
theorem pop16Then_of_stop_low (h : accessStops s s.sp = true) (k : Word → State → Result) :
    pop16Then s k = .next (chargeRead s.sp s) := by
  rcases pop16Then_cases (rfl : pop16Then s k = _) with ⟨_, ho⟩ | ⟨h1, _⟩ | ⟨h1, _⟩
  · exact ho
  · simp [h] at h1
  · simp [h] at h1

/-- `Pop16` where its second byte, the high one, stops the step. -/
theorem pop16Then_of_stop_high (h1 : accessStops s s.sp = false) (h2 : accessStops s (s.sp + 1#16) = true)
    (k : Word → State → Result) :
    pop16Then s k = .next ((chargeRead (s.sp + 1#16) (chargeRead s.sp s)).setSp (s.sp + 1#16)) := by
  rcases pop16Then_cases (rfl : pop16Then s k = _) with ⟨h, _⟩ | ⟨_, _, ho⟩ | ⟨_, h, _⟩
  · simp [h1] at h
  · exact ho
  · simp [h2] at h

/-! The end of a step. -/

theorem finishStep_of_not_pending (t : State) : finishStep false t = t := by simp [finishStep]

/-- Ending a step keeps the invariant. -/
theorem inv_finishStep (h : t.Inv) (pend : Bool) : (finishStep pend t).Inv :=
  h.congr (by simp) (by simp) (by simp) (by simp) (by simp)

end Sys2Proof.Machine
end

