-- ==== Sys2Proof/Laws/Meanings.lean ====
section
/-! SUPPORT. Reasoning about a whole meaning: what holds of every next state an operation answers, that PREFIX CB
runs the decoded CB instruction, and that every named update keeps the invariant. -/

namespace Sys2Proof.Machine

/-- The result is a next state, and `Q` holds of it. -/
def Answers (Q : State → Prop) (r : Result) : Prop := ∃ t : State, r = .next t ∧ Q t

variable {Q : State → Prop} {s : State} {addr : Word} {v : Byte}

theorem answers_next {t : State} (h : Q t) : Answers Q (.next t) := ⟨t, rfl, h⟩

theorem answers_readThen {k : Byte → State → Result} (hstop : accessStops s addr = true → Q (chargeRead addr s))
    (hgo : accessStops s addr = false → Answers Q (k (readByte s addr) (chargeRead addr s))) :
    Answers Q (readThen addr s k) := by
  rcases h : accessStops s addr
  · rw [readThen_of_go h]
    exact hgo h
  · rw [readThen_of_stop h]
    exact answers_next (hstop h)

theorem answers_writeThen {k : State → Result} (hstop : accessStops s addr = true → Q (writeByte addr v s))
    (hgo : accessStops s addr = false → Answers Q (k (writeByte addr v s))) : Answers Q (writeThen addr v s k) := by
  rcases h : accessStops s addr
  · rw [writeThen_of_go h]
    exact hgo h
  · rw [writeThen_of_stop h]
    exact answers_next (hstop h)

theorem answers_fetch8Then {k : Byte → State → Result} (hstop : accessStops s s.pc = true → Q (chargeRead s.pc s))
    (hgo : accessStops s s.pc = false → Answers Q (k (readByte s s.pc) ((chargeRead s.pc s).setPc (s.pc + 1#16)))) :
    Answers Q (fetch8Then s k) :=
  answers_readThen hstop (by simpa using hgo)

theorem answers_ite {c : Prop} [Decidable c] {a b : Result} (ht : c → Answers Q a) (hf : ¬c → Answers Q b) :
    Answers Q (if c then a else b) := by
  split <;> simp_all

/-! PREFIX CB. -/

theorem runCbRot_eq_exec (y : Nat) (slot : Option Reg8) (s : State) :
    runCbRot y slot s = exec (decodeCbRot y slot) s := by
  cases slot <;> (rcases y with _ | _ | _ | _ | _ | _ | _ | y) <;> rfl

/-- The sub-decoder runs the instruction the CB table gives (30_encoding R101). -/
theorem runCb_eq_exec (sub : Byte) (s : State) : runCb sub s = exec (decodeCb sub) s := by
  unfold runCb decodeCb
  generalize fieldX sub = x
  generalize regOfIndex (fieldZ sub) = o
  rcases x with _ | _ | _ | x <;> cases o <;> first | rfl | exact runCbRot_eq_exec _ _ _

/-- The CB table never gives the prefix again (30_encoding R101). -/
theorem decodeCb_ne_prefixCb (sub : Byte) : decodeCb sub ≠ .prefixCb := by
  simp only [decodeCb, decodeCbRot]
  (repeat' split) <;> simp

/-! Every named update keeps the invariant. -/

theorem inv_setReg8 (h : s.Inv) (r : Reg8) (v : Byte) : (s.setReg8 r v).Inv := by
  cases r <;> exact h.congr rfl rfl rfl rfl rfl

theorem inv_setReg16 (h : s.Inv) (rr : Reg16) (v : Word) : (s.setReg16 rr v).Inv := by
  cases rr <;> exact h.congr rfl rfl rfl rfl rfl

theorem inv_setPair (h : s.Inv) (rr : StackPair) (v : Word) : (s.setPair rr v).Inv := by
  cases rr <;> exact h.congr rfl rfl rfl rfl rfl

theorem inv_setPc (h : s.Inv) (v : Word) : (s.setPc v).Inv := h.congr rfl rfl rfl rfl rfl

theorem inv_setSp (h : s.Inv) (v : Word) : (s.setSp v).Inv := h.congr rfl rfl rfl rfl rfl

theorem inv_setHl (h : s.Inv) (v : Word) : (s.setHl v).Inv := h.congr rfl rfl rfl rfl rfl

theorem inv_setIme (h : s.Inv) (b : Bool) : (s.setIme b).Inv := h.congr rfl rfl rfl rfl rfl

theorem inv_setImePending (h : s.Inv) (b : Bool) : (s.setImePending b).Inv := h.congr rfl rfl rfl rfl rfl

theorem inv_setHalted (h : s.Inv) (b : Bool) : (s.setHalted b).Inv := h.congr rfl rfl rfl rfl rfl

theorem inv_setStopped (h : s.Inv) (b : Bool) : (s.setStopped b).Inv := h.congr rfl rfl rfl rfl rfl

theorem inv_internal (h : s.Inv) (n : Nat) : (internal n s).Inv := h.congr rfl rfl rfl rfl rfl

theorem inv_setAf (h : s.Inv) (v : Word) : (s.setAf v).Inv := by
  obtain ⟨_, h2, h3, h4⟩ := h
  exact ⟨by simp [State.flagNibbleClear, State.setAf], h2, h3, h4⟩

theorem inv_illegalOpcode (h : s.Inv) (op : Byte) : (illegalOpcode op s).Inv := by
  obtain ⟨h1, h2, h3, h4⟩ := h
  refine ⟨h1, h2, h3, ?_⟩
  simpa [State.fatalExact, illegalOpcode, State.log, State.setHalted, Diag.isAccess] using h4

end Sys2Proof.Machine
end

