-- ==== Sys2Proof/Laws/PerInstr.lean ====
section
/-! SUPPORT. Facts about every instruction as syntax, one lemma per constructor. -/

namespace Sys2Proof.Laws

/-- An instruction is 1, 2 or 3 bytes long, and its length is the one its opcode byte fixes; the bytes of PREFIX CB
are the prefix alone (30_encoding R90, R104). -/
def EncodeLength.Statement (i : Instr) : Prop := (encode i).length = 1 ∨ (encode i).length = 2 ∨ (encode i).length = 3

theorem EncodeLength.rlcHl : EncodeLength.Statement (.rlcHl) := .inr (.inl rfl)
theorem EncodeLength.rrcHl : EncodeLength.Statement (.rrcHl) := .inr (.inl rfl)
theorem EncodeLength.rlHl : EncodeLength.Statement (.rlHl) := .inr (.inl rfl)
theorem EncodeLength.rrHl : EncodeLength.Statement (.rrHl) := .inr (.inl rfl)
theorem EncodeLength.slaHl : EncodeLength.Statement (.slaHl) := .inr (.inl rfl)
theorem EncodeLength.sraHl : EncodeLength.Statement (.sraHl) := .inr (.inl rfl)
theorem EncodeLength.swapHl : EncodeLength.Statement (.swapHl) := .inr (.inl rfl)
theorem EncodeLength.srlHl : EncodeLength.Statement (.srlHl) := .inr (.inl rfl)
theorem EncodeLength.rlcR (r : Reg8) : EncodeLength.Statement (.rlcR r) := .inr (.inl rfl)
theorem EncodeLength.rrcR (r : Reg8) : EncodeLength.Statement (.rrcR r) := .inr (.inl rfl)
theorem EncodeLength.rlR (r : Reg8) : EncodeLength.Statement (.rlR r) := .inr (.inl rfl)
theorem EncodeLength.rrR (r : Reg8) : EncodeLength.Statement (.rrR r) := .inr (.inl rfl)
theorem EncodeLength.slaR (r : Reg8) : EncodeLength.Statement (.slaR r) := .inr (.inl rfl)
theorem EncodeLength.sraR (r : Reg8) : EncodeLength.Statement (.sraR r) := .inr (.inl rfl)
theorem EncodeLength.swapR (r : Reg8) : EncodeLength.Statement (.swapR r) := .inr (.inl rfl)
theorem EncodeLength.srlR (r : Reg8) : EncodeLength.Statement (.srlR r) := .inr (.inl rfl)
theorem EncodeLength.bitHl (bit : Nat) : EncodeLength.Statement (.bitHl bit) := .inr (.inl rfl)
theorem EncodeLength.resHl (bit : Nat) : EncodeLength.Statement (.resHl bit) := .inr (.inl rfl)
theorem EncodeLength.setHl (bit : Nat) : EncodeLength.Statement (.setHl bit) := .inr (.inl rfl)
theorem EncodeLength.bitR (bit : Nat) (r : Reg8) : EncodeLength.Statement (.bitR bit r) := .inr (.inl rfl)
theorem EncodeLength.resR (bit : Nat) (r : Reg8) : EncodeLength.Statement (.resR bit r) := .inr (.inl rfl)
theorem EncodeLength.setR (bit : Nat) (r : Reg8) : EncodeLength.Statement (.setR bit r) := .inr (.inl rfl)
theorem EncodeLength.ldHlN8 (n : Byte) : EncodeLength.Statement (.ldHlN8 n) := .inr (.inl rfl)
theorem EncodeLength.ldABc : EncodeLength.Statement (.ldABc) := .inl rfl
theorem EncodeLength.ldADe : EncodeLength.Statement (.ldADe) := .inl rfl
theorem EncodeLength.ldBcA : EncodeLength.Statement (.ldBcA) := .inl rfl
theorem EncodeLength.ldDeA : EncodeLength.Statement (.ldDeA) := .inl rfl
theorem EncodeLength.ldAA16 (addr : Word) : EncodeLength.Statement (.ldAA16 addr) := .inr (.inr rfl)
theorem EncodeLength.ldA16A (addr : Word) : EncodeLength.Statement (.ldA16A addr) := .inr (.inr rfl)
theorem EncodeLength.ldhAA8 (n : Byte) : EncodeLength.Statement (.ldhAA8 n) := .inr (.inl rfl)
theorem EncodeLength.ldhA8A (n : Byte) : EncodeLength.Statement (.ldhA8A n) := .inr (.inl rfl)
theorem EncodeLength.ldhAC : EncodeLength.Statement (.ldhAC) := .inl rfl
theorem EncodeLength.ldhCA : EncodeLength.Statement (.ldhCA) := .inl rfl
theorem EncodeLength.ldHlIncA : EncodeLength.Statement (.ldHlIncA) := .inl rfl
theorem EncodeLength.ldAHlInc : EncodeLength.Statement (.ldAHlInc) := .inl rfl
theorem EncodeLength.ldHlDecA : EncodeLength.Statement (.ldHlDecA) := .inl rfl
theorem EncodeLength.ldAHlDec : EncodeLength.Statement (.ldAHlDec) := .inl rfl
theorem EncodeLength.ldA16Sp (addr : Word) : EncodeLength.Statement (.ldA16Sp addr) := .inr (.inr rfl)
theorem EncodeLength.ldSpHl : EncodeLength.Statement (.ldSpHl) := .inl rfl
theorem EncodeLength.ldHlSpE8 (n : Byte) : EncodeLength.Statement (.ldHlSpE8 n) := .inr (.inl rfl)
theorem EncodeLength.addAHl : EncodeLength.Statement (.addAHl) := .inl rfl
theorem EncodeLength.addAN8 (n : Byte) : EncodeLength.Statement (.addAN8 n) := .inr (.inl rfl)
theorem EncodeLength.adcAHl : EncodeLength.Statement (.adcAHl) := .inl rfl
theorem EncodeLength.adcAN8 (n : Byte) : EncodeLength.Statement (.adcAN8 n) := .inr (.inl rfl)
theorem EncodeLength.subAHl : EncodeLength.Statement (.subAHl) := .inl rfl
theorem EncodeLength.subAN8 (n : Byte) : EncodeLength.Statement (.subAN8 n) := .inr (.inl rfl)
theorem EncodeLength.sbcAHl : EncodeLength.Statement (.sbcAHl) := .inl rfl
theorem EncodeLength.sbcAN8 (n : Byte) : EncodeLength.Statement (.sbcAN8 n) := .inr (.inl rfl)
theorem EncodeLength.andAHl : EncodeLength.Statement (.andAHl) := .inl rfl
theorem EncodeLength.andAN8 (n : Byte) : EncodeLength.Statement (.andAN8 n) := .inr (.inl rfl)
theorem EncodeLength.xorAHl : EncodeLength.Statement (.xorAHl) := .inl rfl
theorem EncodeLength.xorAN8 (n : Byte) : EncodeLength.Statement (.xorAN8 n) := .inr (.inl rfl)
theorem EncodeLength.orAHl : EncodeLength.Statement (.orAHl) := .inl rfl
theorem EncodeLength.orAN8 (n : Byte) : EncodeLength.Statement (.orAN8 n) := .inr (.inl rfl)
theorem EncodeLength.cpAHl : EncodeLength.Statement (.cpAHl) := .inl rfl
theorem EncodeLength.cpAN8 (n : Byte) : EncodeLength.Statement (.cpAN8 n) := .inr (.inl rfl)
theorem EncodeLength.addSpE8 (n : Byte) : EncodeLength.Statement (.addSpE8 n) := .inr (.inl rfl)
theorem EncodeLength.incHl : EncodeLength.Statement (.incHl) := .inl rfl
theorem EncodeLength.decHl : EncodeLength.Statement (.decHl) := .inl rfl
theorem EncodeLength.rlca : EncodeLength.Statement (.rlca) := .inl rfl
theorem EncodeLength.rrca : EncodeLength.Statement (.rrca) := .inl rfl
theorem EncodeLength.rla : EncodeLength.Statement (.rla) := .inl rfl
theorem EncodeLength.rra : EncodeLength.Statement (.rra) := .inl rfl
theorem EncodeLength.pushAf : EncodeLength.Statement (.pushAf) := .inl rfl
theorem EncodeLength.popAf : EncodeLength.Statement (.popAf) := .inl rfl
theorem EncodeLength.jrE8 (n : Byte) : EncodeLength.Statement (.jrE8 n) := .inr (.inl rfl)
theorem EncodeLength.jpA16 (addr : Word) : EncodeLength.Statement (.jpA16 addr) := .inr (.inr rfl)
theorem EncodeLength.jpHl : EncodeLength.Statement (.jpHl) := .inl rfl
theorem EncodeLength.callA16 (addr : Word) : EncodeLength.Statement (.callA16 addr) := .inr (.inr rfl)
theorem EncodeLength.ret : EncodeLength.Statement (.ret) := .inl rfl
theorem EncodeLength.reti : EncodeLength.Statement (.reti) := .inl rfl
theorem EncodeLength.nop : EncodeLength.Statement (.nop) := .inl rfl
theorem EncodeLength.halt : EncodeLength.Statement (.halt) := .inl rfl
theorem EncodeLength.stop : EncodeLength.Statement (.stop) := .inl rfl
theorem EncodeLength.di : EncodeLength.Statement (.di) := .inl rfl
theorem EncodeLength.ei : EncodeLength.Statement (.ei) := .inl rfl
theorem EncodeLength.scf : EncodeLength.Statement (.scf) := .inl rfl
theorem EncodeLength.ccf : EncodeLength.Statement (.ccf) := .inl rfl
theorem EncodeLength.cpl : EncodeLength.Statement (.cpl) := .inl rfl
theorem EncodeLength.prefixCb : EncodeLength.Statement (.prefixCb) := .inl rfl
theorem EncodeLength.daa : EncodeLength.Statement (.daa) := .inl rfl
theorem EncodeLength.illegalD3 : EncodeLength.Statement (.illegalD3) := .inl rfl
theorem EncodeLength.illegalDB : EncodeLength.Statement (.illegalDB) := .inl rfl
theorem EncodeLength.illegalDD : EncodeLength.Statement (.illegalDD) := .inl rfl
theorem EncodeLength.illegalE3 : EncodeLength.Statement (.illegalE3) := .inl rfl
theorem EncodeLength.illegalE4 : EncodeLength.Statement (.illegalE4) := .inl rfl
theorem EncodeLength.illegalEB : EncodeLength.Statement (.illegalEB) := .inl rfl
theorem EncodeLength.illegalEC : EncodeLength.Statement (.illegalEC) := .inl rfl
theorem EncodeLength.illegalED : EncodeLength.Statement (.illegalED) := .inl rfl
theorem EncodeLength.illegalF4 : EncodeLength.Statement (.illegalF4) := .inl rfl
theorem EncodeLength.illegalFC : EncodeLength.Statement (.illegalFC) := .inl rfl
theorem EncodeLength.illegalFD : EncodeLength.Statement (.illegalFD) := .inl rfl
theorem EncodeLength.ldRrN16 (rr : Reg16) (n : Word) : EncodeLength.Statement (.ldRrN16 rr n) := .inr (.inr rfl)
theorem EncodeLength.addHlRr (rr : Reg16) : EncodeLength.Statement (.addHlRr rr) := .inl rfl
theorem EncodeLength.incRr (rr : Reg16) : EncodeLength.Statement (.incRr rr) := .inl rfl
theorem EncodeLength.decRr (rr : Reg16) : EncodeLength.Statement (.decRr rr) := .inl rfl
theorem EncodeLength.pushRr (rr : StackPair) : EncodeLength.Statement (.pushRr rr) := .inl rfl
theorem EncodeLength.popRr (rr : StackPair) : EncodeLength.Statement (.popRr rr) := .inl rfl
theorem EncodeLength.jrCcE8 (cc : Cond) (n : Byte) : EncodeLength.Statement (.jrCcE8 cc n) := .inr (.inl rfl)
theorem EncodeLength.jpCcA16 (cc : Cond) (addr : Word) : EncodeLength.Statement (.jpCcA16 cc addr) := .inr (.inr rfl)
theorem EncodeLength.callCcA16 (cc : Cond) (addr : Word) : EncodeLength.Statement (.callCcA16 cc addr) := .inr (.inr rfl)
theorem EncodeLength.retCc (cc : Cond) : EncodeLength.Statement (.retCc cc) := .inl rfl
theorem EncodeLength.ldRN8 (r : Reg8) (n : Byte) : EncodeLength.Statement (.ldRN8 r n) := .inr (.inl rfl)
theorem EncodeLength.ldRHl (r : Reg8) : EncodeLength.Statement (.ldRHl r) := .inl rfl
theorem EncodeLength.ldHlR (r : Reg8) : EncodeLength.Statement (.ldHlR r) := .inl rfl
theorem EncodeLength.addAR (r : Reg8) : EncodeLength.Statement (.addAR r) := .inl rfl
theorem EncodeLength.adcAR (r : Reg8) : EncodeLength.Statement (.adcAR r) := .inl rfl
theorem EncodeLength.subAR (r : Reg8) : EncodeLength.Statement (.subAR r) := .inl rfl
theorem EncodeLength.sbcAR (r : Reg8) : EncodeLength.Statement (.sbcAR r) := .inl rfl
theorem EncodeLength.andAR (r : Reg8) : EncodeLength.Statement (.andAR r) := .inl rfl
theorem EncodeLength.xorAR (r : Reg8) : EncodeLength.Statement (.xorAR r) := .inl rfl
theorem EncodeLength.orAR (r : Reg8) : EncodeLength.Statement (.orAR r) := .inl rfl
theorem EncodeLength.cpAR (r : Reg8) : EncodeLength.Statement (.cpAR r) := .inl rfl
theorem EncodeLength.incR (r : Reg8) : EncodeLength.Statement (.incR r) := .inl rfl
theorem EncodeLength.decR (r : Reg8) : EncodeLength.Statement (.decR r) := .inl rfl
theorem EncodeLength.rstVec (vec : Byte) : EncodeLength.Statement (.rstVec vec) := .inl rfl
theorem EncodeLength.ldRR (r : Reg8) (r' : Reg8) : EncodeLength.Statement (.ldRR r r') := .inl rfl

end Sys2Proof.Laws
end

