-- ==== Sys2Proof/Tests/Slice0.lean ====
section
/-! SUPPORT. The model's own tests: ill-formed instructions refused, one decoded word of every constructor written out
from the spec's encoding, steps of the spec's own test vectors (95_test_vectors part 2), and for every statement with
hypotheses a state and operands that meet them. -/

namespace Sys2Proof.Tests

open Sys2Proof Sys2Proof.Machine Sys2Proof.Claims

/-! Well-formedness: each check refuses an ill-formed instruction (30_encoding R103). -/

theorem test_wf_bitHl : (Instr.bitHl 8).wf = false ∧ (Instr.bitHl 7).wf = true := by decide
theorem test_wf_resHl : (Instr.resHl 8).wf = false ∧ (Instr.resHl 7).wf = true := by decide
theorem test_wf_setHl : (Instr.setHl 8).wf = false ∧ (Instr.setHl 7).wf = true := by decide
theorem test_wf_bitR : (Instr.bitR 8 .b).wf = false ∧ (Instr.bitR 7 .b).wf = true := by decide
theorem test_wf_resR : (Instr.resR 9 .a).wf = false ∧ (Instr.resR 0 .a).wf = true := by decide
theorem test_wf_setR : (Instr.setR 8 .h).wf = false ∧ (Instr.setR 7 .h).wf = true := by decide
theorem test_wf_rstVec :
    (Instr.rstVec 0x01#8).wf = false ∧ (Instr.rstVec 0x40#8).wf = false ∧ (Instr.rstVec 0x38#8).wf = true := by decide

/-! Decoding, from the Encoding line of each rule. The fields are written as the spec prints them: an opcode byte with
register fields in binary, `x y z`. -/

/-- The byte list decodes to the instruction, with nothing left over. -/
def decodesTo (bytes : List Byte) (i : Instr) : Bool := decide (decode bytes = .instr i [])

theorem test_decode_load_register :
    decodesTo [0b01000001#8] (.ldRR .b .c) = true ∧ decodesTo [0b01111101#8] (.ldRR .a .l) = true ∧
      decodesTo [0b00010110#8, 0x9A#8] (.ldRN8 .d 0x9A#8) = true ∧ decodesTo [0b01011110#8] (.ldRHl .e) = true ∧
      decodesTo [0b01110100#8] (.ldHlR .h) = true ∧ decodesTo [0x36#8, 0x5A#8] (.ldHlN8 0x5A#8) = true := by decide

theorem test_decode_load_indirect :
    decodesTo [0x0A#8] .ldABc = true ∧ decodesTo [0x1A#8] .ldADe = true ∧ decodesTo [0x02#8] .ldBcA = true ∧
      decodesTo [0x12#8] .ldDeA = true ∧ decodesTo [0x22#8] .ldHlIncA = true ∧ decodesTo [0x2A#8] .ldAHlInc = true ∧
      decodesTo [0x32#8] .ldHlDecA = true ∧ decodesTo [0x3A#8] .ldAHlDec = true := by decide

theorem test_decode_load_direct :
    decodesTo [0xFA#8, 0x34#8, 0xC2#8] (.ldAA16 0xC234#16) = true ∧
      decodesTo [0xEA#8, 0x34#8, 0xC2#8] (.ldA16A 0xC234#16) = true ∧
      decodesTo [0xF0#8, 0x80#8] (.ldhAA8 0x80#8) = true ∧ decodesTo [0xE0#8, 0x0F#8] (.ldhA8A 0x0F#8) = true ∧
      decodesTo [0xF2#8] .ldhAC = true ∧ decodesTo [0xE2#8] .ldhCA = true := by decide

theorem test_decode_load_word :
    decodesTo [0b00100001#8, 0x34#8, 0x12#8] (.ldRrN16 .hl 0x1234#16) = true ∧
      decodesTo [0b00110001#8, 0x00#8, 0xD0#8] (.ldRrN16 .sp 0xD000#16) = true ∧
      decodesTo [0x08#8, 0x00#8, 0xC1#8] (.ldA16Sp 0xC100#16) = true ∧ decodesTo [0xF9#8] .ldSpHl = true ∧
      decodesTo [0xF8#8, 0xFF#8] (.ldHlSpE8 0xFF#8) = true := by decide

theorem test_decode_alu_register :
    decodesTo [0b10000000#8] (.addAR .b) = true ∧ decodesTo [0b10001001#8] (.adcAR .c) = true ∧
      decodesTo [0b10010010#8] (.subAR .d) = true ∧ decodesTo [0b10011011#8] (.sbcAR .e) = true ∧
      decodesTo [0b10100100#8] (.andAR .h) = true ∧ decodesTo [0b10101101#8] (.xorAR .l) = true ∧
      decodesTo [0b10110111#8] (.orAR .a) = true ∧ decodesTo [0b10111000#8] (.cpAR .b) = true := by decide

theorem test_decode_alu_memory :
    decodesTo [0x86#8] .addAHl = true ∧ decodesTo [0x8E#8] .adcAHl = true ∧ decodesTo [0x96#8] .subAHl = true ∧
      decodesTo [0x9E#8] .sbcAHl = true ∧ decodesTo [0xA6#8] .andAHl = true ∧ decodesTo [0xAE#8] .xorAHl = true ∧
      decodesTo [0xB6#8] .orAHl = true ∧ decodesTo [0xBE#8] .cpAHl = true := by decide

theorem test_decode_alu_immediate :
    decodesTo [0xC6#8, 0x03#8] (.addAN8 0x03#8) = true ∧ decodesTo [0xCE#8, 0x03#8] (.adcAN8 0x03#8) = true ∧
      decodesTo [0xD6#8, 0x0F#8] (.subAN8 0x0F#8) = true ∧ decodesTo [0xDE#8, 0x01#8] (.sbcAN8 0x01#8) = true ∧
      decodesTo [0xE6#8, 0x0F#8] (.andAN8 0x0F#8) = true ∧ decodesTo [0xEE#8, 0xFF#8] (.xorAN8 0xFF#8) = true ∧
      decodesTo [0xF6#8, 0x00#8] (.orAN8 0x00#8) = true ∧ decodesTo [0xFE#8, 0x90#8] (.cpAN8 0x90#8) = true := by decide

theorem test_decode_alu16 :
    decodesTo [0b00111001#8] (.addHlRr .sp) = true ∧ decodesTo [0b00010011#8] (.incRr .de) = true ∧
      decodesTo [0b00001011#8] (.decRr .bc) = true ∧ decodesTo [0xE8#8, 0xFF#8] (.addSpE8 0xFF#8) = true := by decide

theorem test_decode_incdec8_rotate :
    decodesTo [0b00111100#8] (.incR .a) = true ∧ decodesTo [0x34#8] .incHl = true ∧
      decodesTo [0b00000101#8] (.decR .b) = true ∧ decodesTo [0x35#8] .decHl = true ∧
      decodesTo [0x07#8] .rlca = true ∧ decodesTo [0x0F#8] .rrca = true ∧ decodesTo [0x17#8] .rla = true ∧
      decodesTo [0x1F#8] .rra = true := by decide

theorem test_decode_stack :
    decodesTo [0b11010101#8] (.pushRr .de) = true ∧ decodesTo [0xF5#8] .pushAf = true ∧
      decodesTo [0b11100001#8] (.popRr .hl) = true ∧ decodesTo [0xF1#8] .popAf = true := by decide

theorem test_decode_jump :
    decodesTo [0x18#8, 0xFE#8] (.jrE8 0xFE#8) = true ∧ decodesTo [0b00101000#8, 0xFB#8] (.jrCcE8 .z 0xFB#8) = true ∧
      decodesTo [0xC3#8, 0x00#8, 0xC0#8] (.jpA16 0xC000#16) = true ∧
      decodesTo [0b11010010#8, 0x34#8, 0xC0#8] (.jpCcA16 .nc 0xC034#16) = true ∧ decodesTo [0xE9#8] .jpHl = true := by
  decide

theorem test_decode_call :
    decodesTo [0xCD#8, 0x0A#8, 0x01#8] (.callA16 0x010A#16) = true ∧
      decodesTo [0b11011100#8, 0x34#8, 0xC0#8] (.callCcA16 .c 0xC034#16) = true ∧ decodesTo [0xC9#8] .ret = true ∧
      decodesTo [0b11000000#8] (.retCc .nz) = true ∧ decodesTo [0xD9#8] .reti = true ∧
      decodesTo [0b11101111#8] (.rstVec 0x28#8) = true := by decide

theorem test_decode_misc :
    decodesTo [0x00#8] .nop = true ∧ decodesTo [0x76#8] .halt = true ∧ decodesTo [0x10#8] .stop = true ∧
      decodesTo [0xF3#8] .di = true ∧ decodesTo [0xFB#8] .ei = true ∧ decodesTo [0x37#8] .scf = true ∧
      decodesTo [0x3F#8] .ccf = true ∧ decodesTo [0x2F#8] .cpl = true ∧ decodesTo [0xCB#8] .prefixCb = true ∧
      decodesTo [0x27#8] .daa = true := by decide

theorem test_decode_illegal :
    decodesTo [0xD3#8] .illegalD3 = true ∧ decodesTo [0xDB#8] .illegalDB = true ∧ decodesTo [0xDD#8] .illegalDD = true ∧
      decodesTo [0xE3#8] .illegalE3 = true ∧ decodesTo [0xE4#8] .illegalE4 = true ∧
      decodesTo [0xEB#8] .illegalEB = true ∧ decodesTo [0xEC#8] .illegalEC = true ∧
      decodesTo [0xED#8] .illegalED = true ∧ decodesTo [0xF4#8] .illegalF4 = true ∧
      decodesTo [0xFC#8] .illegalFC = true ∧ decodesTo [0xFD#8] .illegalFD = true := by decide

theorem test_decode_cb_rotate :
    decodesTo [0xCB#8, 0b00000000#8] (.rlcR .b) = true ∧ decodesTo [0xCB#8, 0x06#8] .rlcHl = true ∧
      decodesTo [0xCB#8, 0b00001001#8] (.rrcR .c) = true ∧ decodesTo [0xCB#8, 0x0E#8] .rrcHl = true ∧
      decodesTo [0xCB#8, 0b00010010#8] (.rlR .d) = true ∧ decodesTo [0xCB#8, 0x16#8] .rlHl = true ∧
      decodesTo [0xCB#8, 0b00011011#8] (.rrR .e) = true ∧ decodesTo [0xCB#8, 0x1E#8] .rrHl = true := by decide

theorem test_decode_cb_shift :
    decodesTo [0xCB#8, 0b00100100#8] (.slaR .h) = true ∧ decodesTo [0xCB#8, 0x26#8] .slaHl = true ∧
      decodesTo [0xCB#8, 0b00101101#8] (.sraR .l) = true ∧ decodesTo [0xCB#8, 0x2E#8] .sraHl = true ∧
      decodesTo [0xCB#8, 0b00110111#8] (.swapR .a) = true ∧ decodesTo [0xCB#8, 0x36#8] .swapHl = true ∧
      decodesTo [0xCB#8, 0b00111000#8] (.srlR .b) = true ∧ decodesTo [0xCB#8, 0x3E#8] .srlHl = true := by decide

theorem test_decode_cb_bit :
    decodesTo [0xCB#8, 0b01001000#8] (.bitR 1 .b) = true ∧ decodesTo [0xCB#8, 0b01111110#8] (.bitHl 7) = true ∧
      decodesTo [0xCB#8, 0b10111111#8] (.resR 7 .a) = true ∧ decodesTo [0xCB#8, 0b10000110#8] (.resHl 0) = true ∧
      decodesTo [0xCB#8, 0b11101010#8] (.setR 5 .d) = true ∧ decodesTo [0xCB#8, 0b11000110#8] (.setHl 0) = true := by
  decide

/-! Steps of the spec's own vectors. -/

/-- The reset state (70_reset_and_hazards R340) with the default parameters. -/
def start : State := State.init Params.default []

/-- One step from `s`, with the listed bytes in memory, answers a next state that passes the check. -/
def stepGives (cells : List Host.Cell) (s : State) (check : State → Bool) : Bool :=
  match step { s with mem := cells.foldl (fun m cell => m.set cell.1 cell.2) s.mem } with
  | .next t => check t
  | .fault _ => false
  | .refused _ => false

/-- 95_test_vectors part 2, R54: `LD A,(HL)`. -/
theorem test_strict_read :
    stepGives [(0x0100, 0x7E#8)]
      { State.init { Params.default with strictAccess := true } [] with a := 0x55#8, h := 0xE0#8, l := 0x00#8 }
      (fun t => decide (t.f = 0xB0#8 ∧ t.pc = 0x0101#16 ∧ t.fatal = true ∧ t.diag = [.illegalAccess .echoRam 0xE000#16 .read] ∧ t.ticks = 8)) = true := by
  decide

/-- 95_test_vectors part 2, R54: `LD (HL),A`. -/
theorem test_strict_write :
    stepGives [(0x0100, 0x77#8)]
      { State.init { Params.default with strictAccess := true } [] with a := 0x55#8, h := 0xFE#8, l := 0x00#8 }
      (fun t => decide (t.f = 0xB0#8 ∧ t.pc = 0x0101#16 ∧ t.fatal = true ∧ t.diag = [.illegalAccess .oam 0xFE00#16 .write] ∧ t.ticks = 8)) = true := by
  decide

/-- 95_test_vectors part 2, R102: `(illegal 0xD3)`. -/
theorem test_illegalD3_strict :
    stepGives [(0x0100, 0xD3#8)]
      ((State.init { Params.default with strictOpcode := true } []))
      (fun t => decide (t.f = 0xB0#8 ∧ t.pc = 0x0101#16 ∧ t.halted = true ∧ t.diag = [.illegalOpcode 0xD3#8 0x0100#16] ∧ t.ticks = 4)) = true := by
  decide

/-- 95_test_vectors part 2, R120: `LD A,A`. -/
theorem test_ldRR :
    stepGives [(0x0100, 0x7F#8)]
      { start with a := 0x5A#8 }
      (fun t => decide (t.f = 0xB0#8 ∧ t.pc = 0x0101#16 ∧ t.ticks = 4)) = true := by
  decide

/-- 95_test_vectors part 2, R121: `LD A,0x00`. -/
theorem test_ldRN8 :
    stepGives [(0x0100, 0x3E#8), (0x0101, 0x00#8)]
      { start with a := 0x77#8, f := 0x00#8 }
      (fun t => decide (t.a = 0x00#8 ∧ t.f = 0x00#8 ∧ t.pc = 0x0102#16 ∧ t.ticks = 8)) = true := by
  decide

/-- 95_test_vectors part 2, R122: `LD H,(HL)`. -/
theorem test_ldRHl :
    stepGives [(0x0100, 0x66#8), (0xC010, 0x12#8)]
      { start with h := 0xC0#8, l := 0x10#8 }
      (fun t => decide (t.f = 0xB0#8 ∧ t.h = 0x12#8 ∧ t.pc = 0x0101#16 ∧ t.ticks = 8)) = true := by
  decide

/-- 95_test_vectors part 2, R123: `LD (HL),H`. -/
theorem test_ldHlR :
    stepGives [(0x0100, 0x74#8)]
      { start with h := 0xC1#8, l := 0x00#8 }
      (fun t => decide (t.f = 0xB0#8 ∧ t.pc = 0x0101#16 ∧ t.mem.get 0xC100 = 0xC1#8 ∧ t.ticks = 8)) = true := by
  decide

/-- 95_test_vectors part 2, R123: `LD (HL),A`. -/
theorem test_ldHlR_2 :
    stepGives [(0x0100, 0x77#8)]
      { State.init { Params.default with cartWrite := .ignore } [] with a := 0x33#8, h := 0x20#8, l := 0x00#8 }
      (fun t => decide (t.f = 0xB0#8 ∧ t.pc = 0x0101#16 ∧ t.mem.get 0x2000 = 0x00#8 ∧ t.ticks = 8)) = true := by
  decide

/-- 95_test_vectors part 2, R124: `LD (HL),0x5A`. -/
theorem test_ldHlN8 :
    stepGives [(0x0100, 0x36#8), (0x0101, 0x5A#8)]
      { start with h := 0xFF#8, l := 0x80#8 }
      (fun t => decide (t.f = 0xB0#8 ∧ t.pc = 0x0102#16 ∧ t.mem.get 0xFF80 = 0x5A#8 ∧ t.ticks = 12)) = true := by
  decide

/-- 95_test_vectors part 2, R125: `LD A,(BC)`. -/
theorem test_ldABc :
    stepGives [(0x0100, 0x0A#8), (0xC001, 0x44#8)]
      { start with b := 0xC0#8, c := 0x01#8 }
      (fun t => decide (t.a = 0x44#8 ∧ t.f = 0xB0#8 ∧ t.pc = 0x0101#16 ∧ t.ticks = 8)) = true := by
  decide

/-- 95_test_vectors part 2, R126: `LD A,(DE)`. -/
theorem test_ldADe :
    stepGives [(0x0100, 0x1A#8), (0xC002, 0x55#8)]
      { start with d := 0xC0#8, e := 0x02#8 }
      (fun t => decide (t.a = 0x55#8 ∧ t.f = 0xB0#8 ∧ t.pc = 0x0101#16 ∧ t.ticks = 8)) = true := by
  decide

/-- 95_test_vectors part 2, R127: `LD (BC),A`. -/
theorem test_ldBcA :
    stepGives [(0x0100, 0x02#8)]
      { start with a := 0x66#8, b := 0xC0#8, c := 0x03#8 }
      (fun t => decide (t.f = 0xB0#8 ∧ t.pc = 0x0101#16 ∧ t.mem.get 0xC003 = 0x66#8 ∧ t.ticks = 8)) = true := by
  decide

/-- 95_test_vectors part 2, R128: `LD (DE),A`. -/
theorem test_ldDeA :
    stepGives [(0x0100, 0x12#8)]
      { start with a := 0x77#8, d := 0xDF#8, e := 0xFF#8 }
      (fun t => decide (t.f = 0xB0#8 ∧ t.pc = 0x0101#16 ∧ t.mem.get 0xDFFF = 0x77#8 ∧ t.ticks = 8)) = true := by
  decide

/-- 95_test_vectors part 2, R129: `LD A,(0xC234)`. -/
theorem test_ldAA16 :
    stepGives [(0x0100, 0xFA#8), (0x0101, 0x34#8), (0x0102, 0xC2#8), (0xC234, 0x9C#8)]
      { start with a := 0x00#8 }
      (fun t => decide (t.a = 0x9C#8 ∧ t.f = 0xB0#8 ∧ t.pc = 0x0103#16 ∧ t.ticks = 16)) = true := by
  decide

/-- 95_test_vectors part 2, R130: `LD (0xFFFF),A`. -/
theorem test_ldA16A :
    stepGives [(0x0100, 0xEA#8), (0x0101, 0xFF#8), (0x0102, 0xFF#8)]
      { start with a := 0x1F#8 }
      (fun t => decide (t.f = 0xB0#8 ∧ t.pc = 0x0103#16 ∧ t.mem.get 0xFFFF = 0x1F#8 ∧ t.ticks = 16)) = true := by
  decide

/-- 95_test_vectors part 2, R131: `LDH A,(0x80)`. -/
theorem test_ldhAA8 :
    stepGives [(0x0100, 0xF0#8), (0x0101, 0x80#8), (0xFF80, 0xE1#8)]
      { start with a := 0x00#8 }
      (fun t => decide (t.a = 0xE1#8 ∧ t.f = 0xB0#8 ∧ t.pc = 0x0102#16 ∧ t.ticks = 12)) = true := by
  decide

/-- 95_test_vectors part 2, R131: `LDH A,(0x44)`. -/
theorem test_ldhAA8_2 :
    stepGives [(0x0100, 0xF0#8), (0x0101, 0x44#8), (0xFF44, 0x90#8)]
      { State.init { Params.default with ioUnmapped := [0x44] } [] with a := 0x11#8 }
      (fun t => decide (t.a = 0xFF#8 ∧ t.f = 0xB0#8 ∧ t.pc = 0x0102#16 ∧ t.mem.get 0xFF44 = 0x90#8 ∧ t.ticks = 12)) = true := by
  decide

/-- 95_test_vectors part 2, R132: `LDH (0x0F),A`. -/
theorem test_ldhA8A :
    stepGives [(0x0100, 0xE0#8), (0x0101, 0x0F#8)]
      { start with a := 0xA5#8 }
      (fun t => decide (t.f = 0xB0#8 ∧ t.pc = 0x0102#16 ∧ t.mem.get 0xFF0F = 0xA5#8 ∧ t.ticks = 12)) = true := by
  decide

/-- 95_test_vectors part 2, R133: `LDH A,(C)`. -/
theorem test_ldhAC :
    stepGives [(0x0100, 0xF2#8), (0xFFFF, 0x15#8)]
      { start with a := 0x00#8, c := 0xFF#8 }
      (fun t => decide (t.a = 0x15#8 ∧ t.f = 0xB0#8 ∧ t.pc = 0x0101#16 ∧ t.ticks = 8)) = true := by
  decide

/-- 95_test_vectors part 2, R134: `LDH (C),A`. -/
theorem test_ldhCA :
    stepGives [(0x0100, 0xE2#8)]
      { start with a := 0x42#8, c := 0x81#8 }
      (fun t => decide (t.f = 0xB0#8 ∧ t.pc = 0x0101#16 ∧ t.mem.get 0xFF81 = 0x42#8 ∧ t.ticks = 8)) = true := by
  decide

/-- 95_test_vectors part 2, R135: `LD (HL+),A`. -/
theorem test_ldHlIncA :
    stepGives [(0x0100, 0x22#8)]
      { start with a := 0x01#8, h := 0xFF#8, l := 0xFF#8 }
      (fun t => decide (t.f = 0xB0#8 ∧ t.h = 0x00#8 ∧ t.l = 0x00#8 ∧ t.pc = 0x0101#16 ∧ t.mem.get 0xFFFF = 0x01#8 ∧ t.ticks = 8)) = true := by
  decide

/-- 95_test_vectors part 2, R136: `LD A,(HL+)`. -/
theorem test_ldAHlInc :
    stepGives [(0x0100, 0x2A#8), (0xC000, 0x21#8)]
      { start with h := 0xC0#8, l := 0x00#8 }
      (fun t => decide (t.a = 0x21#8 ∧ t.f = 0xB0#8 ∧ t.l = 0x01#8 ∧ t.pc = 0x0101#16 ∧ t.ticks = 8)) = true := by
  decide

/-- 95_test_vectors part 2, R137: `LD (HL-),A`. -/
theorem test_ldHlDecA :
    stepGives [(0x0100, 0x32#8)]
      { start with a := 0x02#8, h := 0xC0#8, l := 0x00#8 }
      (fun t => decide (t.f = 0xB0#8 ∧ t.h = 0xBF#8 ∧ t.l = 0xFF#8 ∧ t.pc = 0x0101#16 ∧ t.mem.get 0xC000 = 0x02#8 ∧ t.ticks = 8)) = true := by
  decide

/-- 95_test_vectors part 2, R138: `LD A,(HL-)`. -/
theorem test_ldAHlDec :
    stepGives [(0x0000, 0x31#8), (0x0100, 0x3A#8)]
      { start with h := 0x00#8, l := 0x00#8 }
      (fun t => decide (t.a = 0x31#8 ∧ t.f = 0xB0#8 ∧ t.h = 0xFF#8 ∧ t.l = 0xFF#8 ∧ t.pc = 0x0101#16 ∧ t.ticks = 8)) = true := by
  decide

/-- 95_test_vectors part 2, R139: `LD BC,0x1234`. -/
theorem test_ldRrN16 :
    stepGives [(0x0100, 0x01#8), (0x0101, 0x34#8), (0x0102, 0x12#8)]
      start
      (fun t => decide (t.f = 0xB0#8 ∧ t.b = 0x12#8 ∧ t.c = 0x34#8 ∧ t.pc = 0x0103#16 ∧ t.ticks = 12)) = true := by
  decide

/-- 95_test_vectors part 2, R140: `LD (0xDFFF),SP`. -/
theorem test_ldA16Sp :
    stepGives [(0x0100, 0x08#8), (0x0101, 0xFF#8), (0x0102, 0xDF#8)]
      { start with sp := 0x1234#16 }
      (fun t => decide (t.f = 0xB0#8 ∧ t.pc = 0x0103#16 ∧ t.mem.get 0xDFFF = 0x34#8 ∧ t.diag = [.illegalAccess .echoRam 0xE000#16 .write] ∧ t.ticks = 20)) = true := by
  decide

/-- 95_test_vectors part 2, R141: `LD SP,HL`. -/
theorem test_ldSpHl :
    stepGives [(0x0100, 0xF9#8)]
      { start with h := 0xD1#8, l := 0x23#8 }
      (fun t => decide (t.f = 0xB0#8 ∧ t.sp = 0xD123#16 ∧ t.pc = 0x0101#16 ∧ t.ticks = 8)) = true := by
  decide

/-- 95_test_vectors part 2, R142: `LD HL,SP+2`. -/
theorem test_ldHlSpE8 :
    stepGives [(0x0100, 0xF8#8), (0x0101, 0x02#8)]
      { start with sp := 0xFFFE#16, f := 0xF0#8 }
      (fun t => decide (t.f = 0x30#8 ∧ t.h = 0x00#8 ∧ t.l = 0x00#8 ∧ t.pc = 0x0102#16 ∧ t.ticks = 12)) = true := by
  decide

/-- 95_test_vectors part 2, R142: `LD HL,SP-1`. -/
theorem test_ldHlSpE8_2 :
    stepGives [(0x0100, 0xF8#8), (0x0101, 0xFF#8)]
      { start with sp := 0x0000#16 }
      (fun t => decide (t.f = 0x00#8 ∧ t.h = 0xFF#8 ∧ t.l = 0xFF#8 ∧ t.pc = 0x0102#16 ∧ t.ticks = 12)) = true := by
  decide

/-- 95_test_vectors part 2, R153: `ADD A,B`. -/
theorem test_addAR :
    stepGives [(0x0100, 0x80#8)]
      { start with a := 0xFF#8, b := 0x01#8, f := 0x00#8 }
      (fun t => decide (t.a = 0x00#8 ∧ t.f = 0xB0#8 ∧ t.pc = 0x0101#16 ∧ t.ticks = 4)) = true := by
  decide

/-- 95_test_vectors part 2, R154: `ADD A,(HL)`. -/
theorem test_addAHl :
    stepGives [(0x0100, 0x86#8), (0xC000, 0xC6#8)]
      { start with a := 0x3A#8, h := 0xC0#8, l := 0x00#8 }
      (fun t => decide (t.a = 0x00#8 ∧ t.f = 0xB0#8 ∧ t.pc = 0x0101#16 ∧ t.ticks = 8)) = true := by
  decide

/-- 95_test_vectors part 2, R155: `ADD A,0x03`. -/
theorem test_addAN8 :
    stepGives [(0x0100, 0xC6#8), (0x0101, 0x03#8)]
      { start with a := 0x05#8 }
      (fun t => decide (t.a = 0x08#8 ∧ t.f = 0x00#8 ∧ t.pc = 0x0102#16 ∧ t.ticks = 8)) = true := by
  decide

/-- 95_test_vectors part 2, R156: `ADC A,B`. -/
theorem test_adcAR :
    stepGives [(0x0100, 0x88#8)]
      { start with a := 0x0F#8, b := 0x00#8, f := 0x10#8 }
      (fun t => decide (t.a = 0x10#8 ∧ t.f = 0x20#8 ∧ t.pc = 0x0101#16 ∧ t.ticks = 4)) = true := by
  decide

/-- 95_test_vectors part 2, R156: `ADC A,B`. -/
theorem test_adcAR_2 :
    stepGives [(0x0100, 0x88#8)]
      { start with a := 0xFF#8, b := 0x00#8, f := 0x10#8 }
      (fun t => decide (t.a = 0x00#8 ∧ t.f = 0xB0#8 ∧ t.pc = 0x0101#16 ∧ t.ticks = 4)) = true := by
  decide

/-- 95_test_vectors part 2, R157: `ADC A,(HL)`. -/
theorem test_adcAHl :
    stepGives [(0x0100, 0x8E#8), (0xC000, 0x0E#8)]
      { start with a := 0x01#8, h := 0xC0#8, l := 0x00#8, f := 0x00#8 }
      (fun t => decide (t.a = 0x0F#8 ∧ t.f = 0x00#8 ∧ t.pc = 0x0101#16 ∧ t.ticks = 8)) = true := by
  decide

/-- 95_test_vectors part 2, R158: `ADC A,0x00`. -/
theorem test_adcAN8 :
    stepGives [(0x0100, 0xCE#8), (0x0101, 0x00#8)]
      { start with a := 0x00#8, f := 0x00#8 }
      (fun t => decide (t.f = 0x80#8 ∧ t.pc = 0x0102#16 ∧ t.ticks = 8)) = true := by
  decide

/-- 95_test_vectors part 2, R159: `SUB A,B`. -/
theorem test_subAR :
    stepGives [(0x0100, 0x90#8)]
      { start with a := 0x00#8, b := 0x01#8, f := 0x00#8 }
      (fun t => decide (t.a = 0xFF#8 ∧ t.f = 0x70#8 ∧ t.pc = 0x0101#16 ∧ t.ticks = 4)) = true := by
  decide

/-- 95_test_vectors part 2, R160: `SUB A,(HL)`. -/
theorem test_subAHl :
    stepGives [(0x0100, 0x96#8), (0xC000, 0x05#8)]
      { start with a := 0x20#8, h := 0xC0#8, l := 0x00#8 }
      (fun t => decide (t.a = 0x1B#8 ∧ t.f = 0x60#8 ∧ t.pc = 0x0101#16 ∧ t.ticks = 8)) = true := by
  decide

/-- 95_test_vectors part 2, R161: `SUB A,0x0F`. -/
theorem test_subAN8 :
    stepGives [(0x0100, 0xD6#8), (0x0101, 0x0F#8)]
      { start with a := 0x0F#8 }
      (fun t => decide (t.a = 0x00#8 ∧ t.f = 0xC0#8 ∧ t.pc = 0x0102#16 ∧ t.ticks = 8)) = true := by
  decide

/-- 95_test_vectors part 2, R162: `SBC A,B`. -/
theorem test_sbcAR :
    stepGives [(0x0100, 0x98#8)]
      { start with a := 0x10#8, b := 0x0F#8, f := 0x10#8 }
      (fun t => decide (t.a = 0x00#8 ∧ t.f = 0xE0#8 ∧ t.pc = 0x0101#16 ∧ t.ticks = 4)) = true := by
  decide

/-- 95_test_vectors part 2, R162: `SBC A,A`. -/
theorem test_sbcAR_2 :
    stepGives [(0x0100, 0x9F#8)]
      { start with a := 0x37#8, f := 0x00#8 }
      (fun t => decide (t.a = 0x00#8 ∧ t.f = 0xC0#8 ∧ t.pc = 0x0101#16 ∧ t.ticks = 4)) = true := by
  decide

/-- 95_test_vectors part 2, R163: `SBC A,(HL)`. -/
theorem test_sbcAHl :
    stepGives [(0x0100, 0x9E#8), (0xC000, 0x04#8)]
      { start with a := 0x05#8, h := 0xC0#8, l := 0x00#8, f := 0x10#8 }
      (fun t => decide (t.a = 0x00#8 ∧ t.f = 0xC0#8 ∧ t.pc = 0x0101#16 ∧ t.ticks = 8)) = true := by
  decide

/-- 95_test_vectors part 2, R164: `SBC A,0x01`. -/
theorem test_sbcAN8 :
    stepGives [(0x0100, 0xDE#8), (0x0101, 0x01#8)]
      { start with a := 0x01#8, f := 0x10#8 }
      (fun t => decide (t.a = 0xFF#8 ∧ t.f = 0x70#8 ∧ t.pc = 0x0102#16 ∧ t.ticks = 8)) = true := by
  decide

/-- 95_test_vectors part 2, R165: `AND A,B`. -/
theorem test_andAR :
    stepGives [(0x0100, 0xA0#8)]
      { start with a := 0xF0#8, b := 0x0F#8, f := 0x10#8 }
      (fun t => decide (t.a = 0x00#8 ∧ t.f = 0xA0#8 ∧ t.pc = 0x0101#16 ∧ t.ticks = 4)) = true := by
  decide

/-- 95_test_vectors part 2, R166: `AND A,(HL)`. -/
theorem test_andAHl :
    stepGives [(0x0100, 0xA6#8), (0xC000, 0x3C#8)]
      { start with a := 0xFF#8, h := 0xC0#8, l := 0x00#8 }
      (fun t => decide (t.a = 0x3C#8 ∧ t.f = 0x20#8 ∧ t.pc = 0x0101#16 ∧ t.ticks = 8)) = true := by
  decide

/-- 95_test_vectors part 2, R167: `AND A,0x0F`. -/
theorem test_andAN8 :
    stepGives [(0x0100, 0xE6#8), (0x0101, 0x0F#8)]
      { start with a := 0xA5#8 }
      (fun t => decide (t.a = 0x05#8 ∧ t.f = 0x20#8 ∧ t.pc = 0x0102#16 ∧ t.ticks = 8)) = true := by
  decide

/-- 95_test_vectors part 2, R168: `XOR A,A`. -/
theorem test_xorAR :
    stepGives [(0x0100, 0xAF#8)]
      { start with a := 0x9D#8, f := 0x70#8 }
      (fun t => decide (t.a = 0x00#8 ∧ t.f = 0x80#8 ∧ t.pc = 0x0101#16 ∧ t.ticks = 4)) = true := by
  decide

/-- 95_test_vectors part 2, R169: `XOR A,(HL)`. -/
theorem test_xorAHl :
    stepGives [(0x0100, 0xAE#8), (0xC000, 0x55#8)]
      { start with a := 0x55#8, h := 0xC0#8, l := 0x00#8 }
      (fun t => decide (t.a = 0x00#8 ∧ t.f = 0x80#8 ∧ t.pc = 0x0101#16 ∧ t.ticks = 8)) = true := by
  decide

/-- 95_test_vectors part 2, R170: `XOR A,0xFF`. -/
theorem test_xorAN8 :
    stepGives [(0x0100, 0xEE#8), (0x0101, 0xFF#8)]
      { start with a := 0x0F#8 }
      (fun t => decide (t.a = 0xF0#8 ∧ t.f = 0x00#8 ∧ t.pc = 0x0102#16 ∧ t.ticks = 8)) = true := by
  decide

/-- 95_test_vectors part 2, R171: `OR A,C`. -/
theorem test_orAR :
    stepGives [(0x0100, 0xB1#8)]
      { start with a := 0x50#8, c := 0x05#8, f := 0xF0#8 }
      (fun t => decide (t.a = 0x55#8 ∧ t.f = 0x00#8 ∧ t.pc = 0x0101#16 ∧ t.ticks = 4)) = true := by
  decide

/-- 95_test_vectors part 2, R172: `OR A,(HL)`. -/
theorem test_orAHl :
    stepGives [(0x0100, 0xB6#8), (0xC000, 0x80#8)]
      { start with a := 0x01#8, h := 0xC0#8, l := 0x00#8 }
      (fun t => decide (t.a = 0x81#8 ∧ t.f = 0x00#8 ∧ t.pc = 0x0101#16 ∧ t.ticks = 8)) = true := by
  decide

/-- 95_test_vectors part 2, R173: `OR A,0x00`. -/
theorem test_orAN8 :
    stepGives [(0x0100, 0xF6#8), (0x0101, 0x00#8)]
      { start with a := 0x00#8 }
      (fun t => decide (t.f = 0x80#8 ∧ t.pc = 0x0102#16 ∧ t.ticks = 8)) = true := by
  decide

/-- 95_test_vectors part 2, R174: `CP A,B`. -/
theorem test_cpAR :
    stepGives [(0x0100, 0xB8#8)]
      { start with a := 0x3C#8, b := 0x3C#8, f := 0x00#8 }
      (fun t => decide (t.f = 0xC0#8 ∧ t.pc = 0x0101#16 ∧ t.ticks = 4)) = true := by
  decide

/-- 95_test_vectors part 2, R174: `CP A,B`. -/
theorem test_cpAR_2 :
    stepGives [(0x0100, 0xB8#8)]
      { start with a := 0x3C#8, b := 0x40#8, f := 0x00#8 }
      (fun t => decide (t.f = 0x50#8 ∧ t.pc = 0x0101#16 ∧ t.ticks = 4)) = true := by
  decide

/-- 95_test_vectors part 2, R175: `CP A,(HL)`. -/
theorem test_cpAHl :
    stepGives [(0x0100, 0xBE#8), (0xC000, 0x01#8)]
      { start with a := 0x10#8, h := 0xC0#8, l := 0x00#8 }
      (fun t => decide (t.f = 0x60#8 ∧ t.pc = 0x0101#16 ∧ t.ticks = 8)) = true := by
  decide

/-- 95_test_vectors part 2, R176: `CP A,0x90`. -/
theorem test_cpAN8 :
    stepGives [(0x0100, 0xFE#8), (0x0101, 0x90#8)]
      { start with a := 0x8F#8 }
      (fun t => decide (t.f = 0x50#8 ∧ t.pc = 0x0102#16 ∧ t.ticks = 8)) = true := by
  decide

/-- 95_test_vectors part 2, R190: `ADD HL,BC`. -/
theorem test_addHlRr :
    stepGives [(0x0100, 0x09#8)]
      { start with h := 0x0F#8, l := 0xFF#8, b := 0x00#8, c := 0x01#8, f := 0x80#8 }
      (fun t => decide (t.f = 0xA0#8 ∧ t.h = 0x10#8 ∧ t.l = 0x00#8 ∧ t.pc = 0x0101#16 ∧ t.ticks = 8)) = true := by
  decide

/-- 95_test_vectors part 2, R191: `INC BC`. -/
theorem test_incRr :
    stepGives [(0x0100, 0x03#8)]
      { start with b := 0xFF#8, c := 0xFF#8, f := 0x00#8 }
      (fun t => decide (t.f = 0x00#8 ∧ t.b = 0x00#8 ∧ t.c = 0x00#8 ∧ t.pc = 0x0101#16 ∧ t.ticks = 8)) = true := by
  decide

/-- 95_test_vectors part 2, R192: `DEC BC`. -/
theorem test_decRr :
    stepGives [(0x0100, 0x0B#8)]
      { start with b := 0x00#8, c := 0x00#8, f := 0x00#8 }
      (fun t => decide (t.f = 0x00#8 ∧ t.b = 0xFF#8 ∧ t.c = 0xFF#8 ∧ t.pc = 0x0101#16 ∧ t.ticks = 8)) = true := by
  decide

/-- 95_test_vectors part 2, R193: `ADD SP,1`. -/
theorem test_addSpE8 :
    stepGives [(0x0100, 0xE8#8), (0x0101, 0x01#8)]
      { start with sp := 0x00FF#16, f := 0xC0#8 }
      (fun t => decide (t.f = 0x30#8 ∧ t.sp = 0x0100#16 ∧ t.pc = 0x0102#16 ∧ t.ticks = 16)) = true := by
  decide

/-- 95_test_vectors part 2, R200: `INC B`. -/
theorem test_incR :
    stepGives [(0x0100, 0x04#8)]
      { start with b := 0xFF#8, f := 0x10#8 }
      (fun t => decide (t.f = 0xB0#8 ∧ t.b = 0x00#8 ∧ t.pc = 0x0101#16 ∧ t.ticks = 4)) = true := by
  decide

/-- 95_test_vectors part 2, R201: `INC (HL)`. -/
theorem test_incHl :
    stepGives [(0x0100, 0x34#8)]
      { start with h := 0x90#8, l := 0x00#8, f := 0x00#8 }
      (fun t => decide (t.f = 0x00#8 ∧ t.pc = 0x0101#16 ∧ t.diag = [.illegalAccess .vram 0x9000#16 .read, .illegalAccess .vram 0x9000#16 .write] ∧ t.ticks = 12)) = true := by
  decide

/-- 95_test_vectors part 2, R202: `DEC B`. -/
theorem test_decR :
    stepGives [(0x0100, 0x05#8)]
      { start with b := 0x00#8, f := 0x00#8 }
      (fun t => decide (t.f = 0x60#8 ∧ t.b = 0xFF#8 ∧ t.pc = 0x0101#16 ∧ t.ticks = 4)) = true := by
  decide

/-- 95_test_vectors part 2, R203: `DEC (HL)`. -/
theorem test_decHl :
    stepGives [(0x0100, 0x35#8), (0xFF80, 0x01#8)]
      { start with h := 0xFF#8, l := 0x80#8, f := 0x10#8 }
      (fun t => decide (t.f = 0xD0#8 ∧ t.pc = 0x0101#16 ∧ t.mem.get 0xFF80 = 0x00#8 ∧ t.ticks = 12)) = true := by
  decide

/-- 95_test_vectors part 2, R210: `RLCA`. -/
theorem test_rlca :
    stepGives [(0x0100, 0x07#8)]
      { start with a := 0x80#8, f := 0xE0#8 }
      (fun t => decide (t.a = 0x01#8 ∧ t.f = 0x10#8 ∧ t.pc = 0x0101#16 ∧ t.ticks = 4)) = true := by
  decide

/-- 95_test_vectors part 2, R211: `RRCA`. -/
theorem test_rrca :
    stepGives [(0x0100, 0x0F#8)]
      { start with a := 0x01#8, f := 0x00#8 }
      (fun t => decide (t.a = 0x80#8 ∧ t.f = 0x10#8 ∧ t.pc = 0x0101#16 ∧ t.ticks = 4)) = true := by
  decide

/-- 95_test_vectors part 2, R212: `RLA`. -/
theorem test_rla :
    stepGives [(0x0100, 0x17#8)]
      { start with a := 0x80#8, f := 0x00#8 }
      (fun t => decide (t.a = 0x00#8 ∧ t.f = 0x10#8 ∧ t.pc = 0x0101#16 ∧ t.ticks = 4)) = true := by
  decide

/-- 95_test_vectors part 2, R213: `RRA`. -/
theorem test_rra :
    stepGives [(0x0100, 0x1F#8)]
      { start with a := 0x01#8, f := 0x00#8 }
      (fun t => decide (t.a = 0x00#8 ∧ t.f = 0x10#8 ∧ t.pc = 0x0101#16 ∧ t.ticks = 4)) = true := by
  decide

/-- 95_test_vectors part 2, R222: `PUSH HL`. -/
theorem test_pushRr :
    stepGives [(0x0100, 0xE5#8)]
      { start with h := 0xAB#8, l := 0xCD#8, sp := 0x0000#16 }
      (fun t => decide (t.f = 0xB0#8 ∧ t.sp = 0xFFFE#16 ∧ t.pc = 0x0101#16 ∧ t.mem.get 0xFFFE = 0xCD#8 ∧ t.mem.get 0xFFFF = 0xAB#8 ∧ t.ticks = 16)) = true := by
  decide

/-- 95_test_vectors part 2, R223: `PUSH AF`. -/
theorem test_pushAf :
    stepGives [(0x0100, 0xF5#8)]
      { start with a := 0x9A#8, sp := 0xD000#16 }
      (fun t => decide (t.f = 0xB0#8 ∧ t.sp = 0xCFFE#16 ∧ t.pc = 0x0101#16 ∧ t.mem.get 0xCFFE = 0xB0#8 ∧ t.mem.get 0xCFFF = 0x9A#8 ∧ t.ticks = 16)) = true := by
  decide

/-- 95_test_vectors part 2, R224: `POP HL`. -/
theorem test_popRr :
    stepGives [(0x0000, 0x66#8), (0x0100, 0xE1#8), (0xFFFF, 0x77#8)]
      { start with sp := 0xFFFF#16 }
      (fun t => decide (t.f = 0xB0#8 ∧ t.h = 0x66#8 ∧ t.l = 0x77#8 ∧ t.sp = 0x0001#16 ∧ t.pc = 0x0101#16 ∧ t.ticks = 12)) = true := by
  decide

/-- 95_test_vectors part 2, R225: `POP AF`. -/
theorem test_popAf :
    stepGives [(0x0100, 0xF1#8), (0xC000, 0xFF#8), (0xC001, 0x12#8)]
      { start with sp := 0xC000#16 }
      (fun t => decide (t.a = 0x12#8 ∧ t.f = 0xF0#8 ∧ t.sp = 0xC002#16 ∧ t.pc = 0x0101#16 ∧ t.ticks = 12)) = true := by
  decide

/-- 95_test_vectors part 2, R231: `JR -2`. -/
theorem test_jrE8 :
    stepGives [(0x0100, 0x18#8), (0x0101, 0xFE#8)]
      start
      (fun t => decide (t.f = 0xB0#8 ∧ t.pc = 0x0100#16 ∧ t.ticks = 12)) = true := by
  decide

/-- 95_test_vectors part 2, R232: `JR NZ,+5`. -/
theorem test_jrCcE8 :
    stepGives [(0x0100, 0x20#8), (0x0101, 0x05#8)]
      { start with f := 0x00#8 }
      (fun t => decide (t.f = 0x00#8 ∧ t.pc = 0x0107#16 ∧ t.ticks = 12)) = true := by
  decide

/-- 95_test_vectors part 2, R232: `JR NZ,+5`. -/
theorem test_jrCcE8_2 :
    stepGives [(0x0100, 0x20#8), (0x0101, 0x05#8)]
      { start with f := 0x80#8 }
      (fun t => decide (t.f = 0x80#8 ∧ t.pc = 0x0102#16 ∧ t.ticks = 8)) = true := by
  decide

/-- 95_test_vectors part 2, R233: `JP 0xC000`. -/
theorem test_jpA16 :
    stepGives [(0x0100, 0xC3#8), (0x0101, 0x00#8), (0x0102, 0xC0#8)]
      start
      (fun t => decide (t.f = 0xB0#8 ∧ t.pc = 0xC000#16 ∧ t.ticks = 16)) = true := by
  decide

/-- 95_test_vectors part 2, R234: `JP NZ,0xC000`. -/
theorem test_jpCcA16 :
    stepGives [(0x0100, 0xC2#8), (0x0101, 0x00#8), (0x0102, 0xC0#8)]
      { start with f := 0x80#8 }
      (fun t => decide (t.f = 0x80#8 ∧ t.pc = 0x0103#16 ∧ t.ticks = 12)) = true := by
  decide

/-- 95_test_vectors part 2, R234: `JP Z,0xC000`. -/
theorem test_jpCcA16_2 :
    stepGives [(0x0100, 0xCA#8), (0x0101, 0x00#8), (0x0102, 0xC0#8)]
      { start with f := 0x80#8 }
      (fun t => decide (t.f = 0x80#8 ∧ t.pc = 0xC000#16 ∧ t.ticks = 16)) = true := by
  decide

/-- 95_test_vectors part 2, R235: `JP HL`. -/
theorem test_jpHl :
    stepGives [(0x0100, 0xE9#8)]
      { start with h := 0xC1#8, l := 0x23#8 }
      (fun t => decide (t.f = 0xB0#8 ∧ t.pc = 0xC123#16 ∧ t.ticks = 4)) = true := by
  decide

/-- 95_test_vectors part 2, R236: `CALL 0x010A`. -/
theorem test_callA16 :
    stepGives [(0x0100, 0xCD#8), (0x0101, 0x0A#8), (0x0102, 0x01#8)]
      { start with sp := 0xFFFE#16 }
      (fun t => decide (t.f = 0xB0#8 ∧ t.sp = 0xFFFC#16 ∧ t.pc = 0x010A#16 ∧ t.mem.get 0xFFFC = 0x03#8 ∧ t.mem.get 0xFFFD = 0x01#8 ∧ t.ticks = 24)) = true := by
  decide

/-- 95_test_vectors part 2, R237: `CALL Z,0xC000`. -/
theorem test_callCcA16 :
    stepGives [(0x0100, 0xCC#8), (0x0101, 0x00#8), (0x0102, 0xC0#8)]
      { start with sp := 0xD000#16, f := 0x80#8 }
      (fun t => decide (t.f = 0x80#8 ∧ t.sp = 0xCFFE#16 ∧ t.pc = 0xC000#16 ∧ t.mem.get 0xCFFE = 0x03#8 ∧ t.mem.get 0xCFFF = 0x01#8 ∧ t.ticks = 24)) = true := by
  decide

/-- 95_test_vectors part 2, R237: `CALL C,0xC000`. -/
theorem test_callCcA16_2 :
    stepGives [(0x0100, 0xDC#8), (0x0101, 0x00#8), (0x0102, 0xC0#8)]
      { start with sp := 0xD000#16, f := 0x10#8 }
      (fun t => decide (t.f = 0x10#8 ∧ t.sp = 0xCFFE#16 ∧ t.pc = 0xC000#16 ∧ t.mem.get 0xCFFE = 0x03#8 ∧ t.mem.get 0xCFFF = 0x01#8 ∧ t.ticks = 24)) = true := by
  decide

/-- 95_test_vectors part 2, R238: `RET`. -/
theorem test_ret :
    stepGives [(0x0100, 0xC9#8), (0xFFFC, 0x03#8), (0xFFFD, 0x01#8)]
      { start with sp := 0xFFFC#16 }
      (fun t => decide (t.f = 0xB0#8 ∧ t.sp = 0xFFFE#16 ∧ t.pc = 0x0103#16 ∧ t.ticks = 16)) = true := by
  decide

/-- 95_test_vectors part 2, R239: `RET NZ`. -/
theorem test_retCc :
    stepGives [(0x0100, 0xC0#8), (0xC000, 0x34#8), (0xC001, 0x12#8)]
      { start with sp := 0xC000#16, f := 0x00#8 }
      (fun t => decide (t.f = 0x00#8 ∧ t.sp = 0xC002#16 ∧ t.pc = 0x1234#16 ∧ t.ticks = 20)) = true := by
  decide

/-- 95_test_vectors part 2, R239: `RET Z`. -/
theorem test_retCc_2 :
    stepGives [(0x0100, 0xC8#8), (0xC000, 0x34#8), (0xC001, 0x12#8)]
      { start with sp := 0xC000#16, f := 0x80#8 }
      (fun t => decide (t.f = 0x80#8 ∧ t.sp = 0xC002#16 ∧ t.pc = 0x1234#16 ∧ t.ticks = 20)) = true := by
  decide

/-- 95_test_vectors part 2, R246: `RETI`. -/
theorem test_reti :
    stepGives [(0x0100, 0xD9#8), (0xC000, 0x50#8), (0xC001, 0x01#8)]
      { start with sp := 0xC000#16, ime := false }
      (fun t => decide (t.f = 0xB0#8 ∧ t.sp = 0xC002#16 ∧ t.pc = 0x0150#16 ∧ t.ime = true ∧ t.ticks = 16)) = true := by
  decide

/-- 95_test_vectors part 2, R247: `RST 0x00`. -/
theorem test_rstVec :
    stepGives [(0x0100, 0xC7#8)]
      { start with sp := 0xD000#16 }
      (fun t => decide (t.f = 0xB0#8 ∧ t.sp = 0xCFFE#16 ∧ t.pc = 0x0000#16 ∧ t.mem.get 0xCFFE = 0x01#8 ∧ t.mem.get 0xCFFF = 0x01#8 ∧ t.ticks = 16)) = true := by
  decide

/-- 95_test_vectors part 2, R250: `NOP`. -/
theorem test_nop :
    stepGives [(0x0100, 0x00#8)]
      start
      (fun t => decide (t.f = 0xB0#8 ∧ t.pc = 0x0101#16 ∧ t.ticks = 4)) = true := by
  decide

/-- 95_test_vectors part 2, R251: `HALT`. -/
theorem test_halt :
    stepGives [(0x0100, 0x76#8)]
      start
      (fun t => decide (t.f = 0xB0#8 ∧ t.pc = 0x0101#16 ∧ t.halted = true ∧ t.ticks = 4)) = true := by
  decide

/-- 95_test_vectors part 2, R252: `STOP`. -/
theorem test_stop :
    stepGives [(0x0100, 0x10#8), (0x0101, 0x00#8)]
      start
      (fun t => decide (t.f = 0xB0#8 ∧ t.pc = 0x0101#16 ∧ t.stopped = true ∧ t.ticks = 4)) = true := by
  decide

/-- 95_test_vectors part 2, R253: `DI`. -/
theorem test_di :
    stepGives [(0x0100, 0xF3#8)]
      { start with ime := true, imePending := true }
      (fun t => decide (t.f = 0xB0#8 ∧ t.pc = 0x0101#16 ∧ t.ime = false ∧ t.imePending = false ∧ t.ticks = 4)) = true := by
  decide

/-- 95_test_vectors part 2, R254: `EI`. -/
theorem test_ei :
    stepGives [(0x0100, 0xFB#8)]
      { start with ime := false }
      (fun t => decide (t.f = 0xB0#8 ∧ t.pc = 0x0101#16 ∧ t.imePending = true ∧ t.ticks = 4)) = true := by
  decide

/-- 95_test_vectors part 2, R255: `SCF`. -/
theorem test_scf :
    stepGives [(0x0100, 0x37#8)]
      { start with f := 0xE0#8 }
      (fun t => decide (t.f = 0x90#8 ∧ t.pc = 0x0101#16 ∧ t.ticks = 4)) = true := by
  decide

/-- 95_test_vectors part 2, R256: `CCF`. -/
theorem test_ccf :
    stepGives [(0x0100, 0x3F#8)]
      { start with f := 0xF0#8 }
      (fun t => decide (t.f = 0x80#8 ∧ t.pc = 0x0101#16 ∧ t.ticks = 4)) = true := by
  decide

/-- 95_test_vectors part 2, R257: `CPL`. -/
theorem test_cpl :
    stepGives [(0x0100, 0x2F#8)]
      { start with a := 0x35#8, f := 0x90#8 }
      (fun t => decide (t.a = 0xCA#8 ∧ t.f = 0xF0#8 ∧ t.pc = 0x0101#16 ∧ t.ticks = 4)) = true := by
  decide

/-- 95_test_vectors part 2, R259: `DAA`. -/
theorem test_daa :
    stepGives [(0x0100, 0x27#8)]
      { start with a := 0x7D#8, f := 0x00#8 }
      (fun t => decide (t.a = 0x83#8 ∧ t.f = 0x00#8 ∧ t.pc = 0x0101#16 ∧ t.ticks = 4)) = true := by
  decide

/-- 95_test_vectors part 2, R259: `DAA`. -/
theorem test_daa_2 :
    stepGives [(0x0100, 0x27#8)]
      { start with a := 0x9A#8, f := 0x00#8 }
      (fun t => decide (t.a = 0x00#8 ∧ t.f = 0x90#8 ∧ t.pc = 0x0101#16 ∧ t.ticks = 4)) = true := by
  decide

/-- 95_test_vectors part 2, R271: `RLC A`. -/
theorem test_rlcR :
    stepGives [(0x0100, 0xCB#8), (0x0101, 0x07#8)]
      { start with a := 0x00#8, f := 0x70#8 }
      (fun t => decide (t.f = 0x80#8 ∧ t.pc = 0x0102#16 ∧ t.ticks = 8)) = true := by
  decide

/-- 95_test_vectors part 2, R272: `RLC (HL)`. -/
theorem test_rlcHl :
    stepGives [(0x0100, 0xCB#8), (0x0101, 0x06#8), (0xC000, 0x80#8)]
      { start with h := 0xC0#8, l := 0x00#8, f := 0x00#8 }
      (fun t => decide (t.f = 0x10#8 ∧ t.pc = 0x0102#16 ∧ t.mem.get 0xC000 = 0x01#8 ∧ t.ticks = 16)) = true := by
  decide

/-- 95_test_vectors part 2, R273: `RRC C`. -/
theorem test_rrcR :
    stepGives [(0x0100, 0xCB#8), (0x0101, 0x09#8)]
      { start with c := 0x01#8, f := 0x00#8 }
      (fun t => decide (t.f = 0x10#8 ∧ t.c = 0x80#8 ∧ t.pc = 0x0102#16 ∧ t.ticks = 8)) = true := by
  decide

/-- 95_test_vectors part 2, R274: `RRC (HL)`. -/
theorem test_rrcHl :
    stepGives [(0x0100, 0xCB#8), (0x0101, 0x0E#8), (0xC000, 0x02#8)]
      { start with h := 0xC0#8, l := 0x00#8, f := 0x00#8 }
      (fun t => decide (t.f = 0x00#8 ∧ t.pc = 0x0102#16 ∧ t.mem.get 0xC000 = 0x01#8 ∧ t.ticks = 16)) = true := by
  decide

/-- 95_test_vectors part 2, R275: `RL D`. -/
theorem test_rlR :
    stepGives [(0x0100, 0xCB#8), (0x0101, 0x12#8)]
      { start with d := 0x80#8, f := 0x00#8 }
      (fun t => decide (t.f = 0x90#8 ∧ t.d = 0x00#8 ∧ t.pc = 0x0102#16 ∧ t.ticks = 8)) = true := by
  decide

/-- 95_test_vectors part 2, R276: `RL (HL)`. -/
theorem test_rlHl :
    stepGives [(0x0100, 0xCB#8), (0x0101, 0x16#8), (0xC000, 0x7F#8)]
      { start with h := 0xC0#8, l := 0x00#8, f := 0x10#8 }
      (fun t => decide (t.f = 0x00#8 ∧ t.pc = 0x0102#16 ∧ t.mem.get 0xC000 = 0xFF#8 ∧ t.ticks = 16)) = true := by
  decide

/-- 95_test_vectors part 2, R277: `RR E`. -/
theorem test_rrR :
    stepGives [(0x0100, 0xCB#8), (0x0101, 0x1B#8)]
      { start with e := 0x01#8, f := 0x00#8 }
      (fun t => decide (t.f = 0x90#8 ∧ t.e = 0x00#8 ∧ t.pc = 0x0102#16 ∧ t.ticks = 8)) = true := by
  decide

/-- 95_test_vectors part 2, R278: `RR (HL)`. -/
theorem test_rrHl :
    stepGives [(0x0100, 0xCB#8), (0x0101, 0x1E#8), (0xC000, 0x00#8)]
      { start with h := 0xC0#8, l := 0x00#8, f := 0x10#8 }
      (fun t => decide (t.f = 0x00#8 ∧ t.pc = 0x0102#16 ∧ t.mem.get 0xC000 = 0x80#8 ∧ t.ticks = 16)) = true := by
  decide

/-- 95_test_vectors part 2, R279: `SLA H`. -/
theorem test_slaR :
    stepGives [(0x0100, 0xCB#8), (0x0101, 0x24#8)]
      { start with h := 0xFF#8, f := 0x00#8 }
      (fun t => decide (t.f = 0x10#8 ∧ t.h = 0xFE#8 ∧ t.pc = 0x0102#16 ∧ t.ticks = 8)) = true := by
  decide

/-- 95_test_vectors part 2, R280: `SLA (HL)`. -/
theorem test_slaHl :
    stepGives [(0x0100, 0xCB#8), (0x0101, 0x26#8), (0xC000, 0x01#8)]
      { start with h := 0xC0#8, l := 0x00#8, f := 0x10#8 }
      (fun t => decide (t.f = 0x00#8 ∧ t.pc = 0x0102#16 ∧ t.mem.get 0xC000 = 0x02#8 ∧ t.ticks = 16)) = true := by
  decide

/-- 95_test_vectors part 2, R281: `SRA L`. -/
theorem test_sraR :
    stepGives [(0x0100, 0xCB#8), (0x0101, 0x2D#8)]
      { start with l := 0x81#8, f := 0x00#8 }
      (fun t => decide (t.f = 0x10#8 ∧ t.l = 0xC0#8 ∧ t.pc = 0x0102#16 ∧ t.ticks = 8)) = true := by
  decide

/-- 95_test_vectors part 2, R282: `SRA (HL)`. -/
theorem test_sraHl :
    stepGives [(0x0100, 0xCB#8), (0x0101, 0x2E#8), (0xC000, 0xFE#8)]
      { start with h := 0xC0#8, l := 0x00#8, f := 0x00#8 }
      (fun t => decide (t.f = 0x00#8 ∧ t.pc = 0x0102#16 ∧ t.mem.get 0xC000 = 0xFF#8 ∧ t.ticks = 16)) = true := by
  decide

/-- 95_test_vectors part 2, R283: `SWAP A`. -/
theorem test_swapR :
    stepGives [(0x0100, 0xCB#8), (0x0101, 0x37#8)]
      { start with a := 0xF1#8, f := 0xF0#8 }
      (fun t => decide (t.a = 0x1F#8 ∧ t.f = 0x00#8 ∧ t.pc = 0x0102#16 ∧ t.ticks = 8)) = true := by
  decide

/-- 95_test_vectors part 2, R284: `SWAP (HL)`. -/
theorem test_swapHl :
    stepGives [(0x0100, 0xCB#8), (0x0101, 0x36#8), (0xC000, 0x5A#8)]
      { start with h := 0xC0#8, l := 0x00#8, f := 0x00#8 }
      (fun t => decide (t.f = 0x00#8 ∧ t.pc = 0x0102#16 ∧ t.mem.get 0xC000 = 0xA5#8 ∧ t.ticks = 16)) = true := by
  decide

/-- 95_test_vectors part 2, R285: `SRL A`. -/
theorem test_srlR :
    stepGives [(0x0100, 0xCB#8), (0x0101, 0x3F#8)]
      { start with a := 0x81#8, f := 0x00#8 }
      (fun t => decide (t.a = 0x40#8 ∧ t.f = 0x10#8 ∧ t.pc = 0x0102#16 ∧ t.ticks = 8)) = true := by
  decide

/-- 95_test_vectors part 2, R286: `SRL (HL)`. -/
theorem test_srlHl :
    stepGives [(0x0100, 0xCB#8), (0x0101, 0x3E#8), (0xC000, 0xFF#8)]
      { start with h := 0xC0#8, l := 0x00#8, f := 0x10#8 }
      (fun t => decide (t.f = 0x10#8 ∧ t.pc = 0x0102#16 ∧ t.mem.get 0xC000 = 0x7F#8 ∧ t.ticks = 16)) = true := by
  decide

/-- 95_test_vectors part 2, R287: `BIT 0,B`. -/
theorem test_bitR :
    stepGives [(0x0100, 0xCB#8), (0x0101, 0x40#8)]
      { start with b := 0x01#8, f := 0x00#8 }
      (fun t => decide (t.f = 0x20#8 ∧ t.pc = 0x0102#16 ∧ t.ticks = 8)) = true := by
  decide

/-- 95_test_vectors part 2, R288: `BIT 0,(HL)`. -/
theorem test_bitHl :
    stepGives [(0x0100, 0xCB#8), (0x0101, 0x46#8), (0xC000, 0xFE#8)]
      { start with h := 0xC0#8, l := 0x00#8, f := 0x00#8 }
      (fun t => decide (t.f = 0xA0#8 ∧ t.pc = 0x0102#16 ∧ t.ticks = 12)) = true := by
  decide

/-- 95_test_vectors part 2, R288: `BIT 7,(HL)`. -/
theorem test_bitHl_2 :
    stepGives [(0x0100, 0xCB#8), (0x0101, 0x7E#8)]
      { start with h := 0xA0#8, l := 0x00#8, f := 0x00#8 }
      (fun t => decide (t.f = 0xA0#8 ∧ t.pc = 0x0102#16 ∧ t.diag = [.illegalAccess .externalRam 0xA000#16 .read] ∧ t.ticks = 12)) = true := by
  decide

/-- 95_test_vectors part 2, R289: `RES 0,B`. -/
theorem test_resR :
    stepGives [(0x0100, 0xCB#8), (0x0101, 0x80#8)]
      { start with b := 0xFF#8, f := 0xF0#8 }
      (fun t => decide (t.f = 0xF0#8 ∧ t.b = 0xFE#8 ∧ t.pc = 0x0102#16 ∧ t.ticks = 8)) = true := by
  decide

/-- 95_test_vectors part 2, R290: `RES 0,(HL)`. -/
theorem test_resHl :
    stepGives [(0x0100, 0xCB#8), (0x0101, 0x86#8), (0xC000, 0x01#8)]
      { start with h := 0xC0#8, l := 0x00#8 }
      (fun t => decide (t.f = 0xB0#8 ∧ t.pc = 0x0102#16 ∧ t.mem.get 0xC000 = 0x00#8 ∧ t.ticks = 16)) = true := by
  decide

/-- 95_test_vectors part 2, R291: `SET 0,B`. -/
theorem test_setR :
    stepGives [(0x0100, 0xCB#8), (0x0101, 0xC0#8)]
      { start with b := 0x00#8, f := 0x00#8 }
      (fun t => decide (t.f = 0x00#8 ∧ t.b = 0x01#8 ∧ t.pc = 0x0102#16 ∧ t.ticks = 8)) = true := by
  decide

/-- 95_test_vectors part 2, R292: `SET 7,(HL)`. -/
theorem test_setHl :
    stepGives [(0x0100, 0xCB#8), (0x0101, 0xFE#8), (0xFFFF, 0x00#8)]
      { start with h := 0xFF#8, l := 0xFF#8 }
      (fun t => decide (t.f = 0xB0#8 ∧ t.pc = 0x0102#16 ∧ t.mem.get 0xFFFF = 0x80#8 ∧ t.ticks = 16)) = true := by
  decide

/-- 95_test_vectors part 2, R102: each illegal byte by default. -/
theorem test_illegal_bytes :
    illegalBytes.all (fun op => stepGives [(0x0100, op)] start fun t =>
      decide (t.pc = 0x0101#16 ∧ t.halted = false ∧ t.diag = [.illegalOpcode op 0x0100#16] ∧ t.ticks = 4)) = true := by
  decide

/-- 47_misc R258 with R283: the prefix's own row, PC on the sub-opcode 0x37. -/
theorem test_prefixCb :
    (match exec .prefixCb { start with mem := [(0x0100, 0x37#8)], a := 0xF1#8 } with
      | .next t => decide (t.a = 0x1F#8 ∧ t.f = 0x00#8 ∧ t.pc = 0x0101#16 ∧ t.ticks = 4)
      | .fault _ => false
      | .refused _ => false) = true := by decide

/-- 30_encoding R99, 10_state R30, R38: a halted machine idles, and the fault state takes no step. -/
theorem test_halted_idles :
    stepGives [(0x0100, 0x3C#8)] { start with halted := true }
      (fun t => decide (t.a = start.a ∧ t.pc = 0x0100#16 ∧ t.halted = true ∧ t.ticks = 4)) = true := by decide

/-- 95_test_vectors part 2, R254: `EI; NOP` and `EI; DI` in their second step. -/
theorem test_ei_delay :
    stepGives [(0x0100, 0x00#8)] { start with imePending := true }
        (fun t => decide (t.ime = true ∧ t.imePending = false)) = true ∧
      stepGives [(0x0100, 0xF3#8)] { start with imePending := true }
        (fun t => decide (t.ime = false ∧ t.imePending = false)) = true := by decide

/-- 20_memory R65: PC wraps from 0xFFFF to 0x0000 inside `LD A,n8`. -/
theorem test_fetch_wraps :
    stepGives [(0xFFFF, 0x3E#8), (0x0000, 0x7B#8)] { start with pc := 0xFFFF#16 }
      (fun t => decide (t.a = 0x7B#8 ∧ t.pc = 0x0001#16 ∧ t.ticks = 8)) = true := by decide

/-! Hypotheses that are met. `lenient` has HL, BC, DE and SP in WRAM; `strict` is the same under STRICT_ACCESS; the
`…Illegal` states have them in regions that are not there. -/

/-- STRICT_ACCESS on. -/
def strictParams : Params := { Params.default with strictAccess := true }

/-- HL, BC, DE and SP in WRAM. -/
def inWram (p : Params) : State :=
  { State.init p [(0x0100, 0x06#8), (0x0101, 0x2A#8), (0xC000, 0x99#8)] with
    b := 0xC1#8, c := 0x00#8, d := 0xC2#8, e := 0x00#8, h := 0xC0#8, l := 0x00#8, sp := 0xD000#16 }

def lenient : State := inWram Params.default

def strict : State := inWram strictParams

/-- HL in VRAM, BC in external RAM, DE in OAM, SP in the echo range, PC in the unusable range. -/
def inGaps (p : Params) : State :=
  { State.init p [] with
    b := 0xA0#8, c := 0x00#8, d := 0xFE#8, e := 0x9F#8, h := 0x80#8, l := 0x00#8, sp := 0xFDFF#16, pc := 0xFEA0#16 }

def lenientIllegal : State := inGaps Params.default

def strictIllegal : State := inGaps strictParams

/-- No access at the address ends a step: under strict access in WRAM, and with it off in VRAM. -/
def HlGoes : Prop :=
  accessStops strict strict.hl = false ∧ accessStops lenientIllegal lenientIllegal.hl = false ∧
    (regionOf lenientIllegal.hl).legal = false

theorem hlGoes : HlGoes := by unfold HlGoes; decide

/-! Encoding. -/

theorem witness_DecodeOfEncodeGivesInstruction :
    (Instr.bitR 7 .a).wf = true ∧ Instr.bitR 7 .a ≠ .prefixCb ∧ (Instr.rstVec 0x38#8).wf = true ∧
      decode (encode (.bitR 7 .a) ++ [0x00#8]) = .instr (.bitR 7 .a) [0x00#8] := by decide

theorem witness_EncodeOfDecodeGivesBytes :
    decode [0xC2#8, 0xFF#8, 0x80#8, 0x3C#8] = .instr (.jpCcA16 .nz 0x80FF#16) [0x3C#8] := by decide

theorem witness_ExactlyElevenBytesAreIllegal :
    decode [0xD3#8, 0x00#8, 0x00#8] = .instr .illegalD3 [0x00#8, 0x00#8] ∧
      decode [0xFD#8, 0xFF#8, 0xFF#8] = .instr .illegalFD [0xFF#8, 0xFF#8] ∧
      decode [0xFE#8, 0x90#8, 0x00#8] = .instr (.cpAN8 0x90#8) [0x00#8] := by decide

theorem witness_CbTableByFields :
    (0 < 8 ∧ 7 < 8) ∧ decode [0xCB#8, BitVec.ofNat 8 (0xC0 + 8 * 7) + slot .a] = .instr (.setR 7 .a) [] := by decide

/-! The step. -/

theorem witness_StepRunsDecodedInstruction :
    (lenient.fatal = false ∧ lenient.halted = false ∧
        decode (codeBytes lenient) = .instr (.ldRN8 .b 0x2A#8) [0x00#8] ∧
        ∀ k : Nat, k < (encode (.ldRN8 .b 0x2A#8)).length →
          accessStops lenient (lenient.pc + BitVec.ofNat 16 k) = false) ∧
      ({ lenient with fatal := true } : State).fatal = true ∧
      ({ lenient with halted := true } : State).fatal = false ∧ ({ lenient with halted := true } : State).halted = true := by
  decide

/-- PC at the end of the cartridge window, so that its bytes run into VRAM. -/
def strictEdge (pc : Word) (mem : Memory) : State := { State.init strictParams mem with pc := pc }

/-- The clauses of a fetch that ends the step: the opcode byte; the operand of LD A,n8, the second byte of a CB
instruction and the high byte of CALL at 0x8000; PREFIX CB by itself. -/
theorem witness_FetchFromIllegalRegion :
    (strictIllegal.fatal = false ∧ strictIllegal.halted = false ∧ (regionOf strictIllegal.pc).legal = false ∧
        strictIllegal.params.strictAccess = true) ∧
      (lenientIllegal.fatal = false ∧ lenientIllegal.halted = false ∧ (regionOf lenientIllegal.pc).legal = false ∧
        lenientIllegal.params.strictAccess = false ∧ lenientIllegal.imePending = false) ∧
      (let s := strictEdge 0x7FFF#16 [(0x7FFF, 0x3E#8)]
       1 < lengthOf (readByte s s.pc) ∧ accessStops s s.pc = false ∧ accessStops s (s.pc + 1#16) = true) ∧
      (let s := strictEdge 0x7FFF#16 [(0x7FFF, 0xCB#8)]
       1 < lengthOf (readByte s s.pc) ∧ accessStops s s.pc = false ∧ accessStops s (s.pc + 1#16) = true) ∧
      (let s := strictEdge 0x7FFE#16 [(0x7FFE, 0xCD#8)]
       2 < lengthOf (readByte s s.pc) ∧ accessStops s s.pc = false ∧ accessStops s (s.pc + 1#16) = false ∧
         accessStops s (s.pc + 2#16) = true) ∧
      accessStops strictIllegal strictIllegal.pc = true := by decide

/-- The step from `s` answers a next state that passes the check. -/
def answers (s : State) (check : State → Bool) : Bool := stepGives [] s check

theorem exists_of_answers {s : State} {check : State → Bool} (h : answers s check = true) :
    ∃ t : State, step s = .next t ∧ check t = true := by
  have h' : (match step s with
      | .next t => check t
      | .fault _ => false
      | .refused _ => false) = true := h
  split at h'
  · exact ⟨_, ‹_›, h'⟩
  · cases h'
  · cases h'

/-- The three clauses of the EI delay: an idle step, a step that began pending, a step that ran EI. -/
theorem witness_EiTakesEffectAfterNextInstruction :
    (∃ t : State, step { lenient with halted := true } = .next t ∧ decide (t.fatal = false) = true) ∧
      (∃ t : State, step { lenient with imePending := true } = .next t ∧
        decide (t.fatal = false ∧ t.ime = true) = true) ∧
      (∃ t : State, step { lenient with mem := [(0x0100, 0xFB#8)] } = .next t ∧
        decide (t.fatal = false ∧ t.imePending = true) = true) :=
  ⟨exists_of_answers (by decide), exists_of_answers (by decide), exists_of_answers (by decide)⟩

/-- A step for each latch that changes: HALT, STOP, an illegal opcode, RETI, an illegal access under STRICT_ACCESS. -/
theorem witness_LatchesChangeOnlyByTheirWriters :
    (∃ t : State, step { lenient with mem := [(0x0100, 0x76#8)] } = .next t ∧ t.halted = true) ∧
      (∃ t : State, step { lenient with mem := [(0x0100, 0x10#8)] } = .next t ∧ t.stopped = true) ∧
      (∃ t : State, step { lenient with
          mem := [(0x0100, 0xD3#8)], params := { Params.default with strictOpcode := true } } = .next t ∧
        t.halted = true) ∧
      (∃ t : State, step { lenient with mem := [(0x0100, 0xD9#8)] } = .next t ∧ t.ime = true) ∧
      (∃ t : State, step strictIllegal = .next t ∧ t.fatal = true) :=
  ⟨exists_of_answers (by decide), exists_of_answers (by decide), exists_of_answers (by decide),
    exists_of_answers (by decide), exists_of_answers (by decide)⟩

theorem witness_NoInstructionReadsUnreadState :
    SameButUnread lenient { lenient with ime := true, stopped := true, ticks := 77, imePending := true } ∧
      lenient ≠ { lenient with ime := true, stopped := true, ticks := 77, imePending := true } :=
  ⟨rfl, by decide⟩

theorem witness_StepKeepsInvariant : strict.Inv ∧ ∃ t : State, step strict = .next t :=
  ⟨⟨by decide, by decide, by decide, by decide⟩, ⟨_, rfl⟩⟩

theorem witness_ResetMeetsInvariant :
    ({ strictOpcode := true, strictAccess := true, cartWrite := .ignore, ioUnmapped := [0, 127],
        romLength := 0x10000 } : Params).wf = true ∧ Memory.wf [(0x0000, 0x01#8), (0xFFFF, 0x02#8)] = true := by
  decide

theorem witness_LogAndTicksOnlyGrow :
    ∃ t : State, step lenientIllegal = .next t ∧ decide (t.diag.length = 1) = true := exists_of_answers (by decide)

theorem witness_ReadOnlyCartridgeNeverChanges :
    ∃ t : State, step { lenient with
      mem := [(0x0100, 0x77#8)], h := 0x7F#8, l := 0xFF#8, params := { Params.default with cartWrite := .ignore } } =
        .next t ∧ decide ((0x7FFF#16).toNat ≤ 0x7FFF ∧ readByte t 0x7FFF#16 = 0x00#8) = true :=
  exists_of_answers (by decide)

theorem witness_NoInstructionTraps : lenient.fatal = false := by decide

theorem witness_InstructionsTakeTheirTCycles :
    lenient.params.strictAccess = false ∧ Instr.nop ≠ .prefixCb ∧ lenient.fatal = false ∧
      ({ lenient with halted := true } : State).halted = true := by decide

theorem witness_FlagsChangeOnlyWhereListed :
    Instr.incHl ≠ .prefixCb ∧ (writesC .incHl = false ∧ writesZ .cpl = false ∧ writesN .daa = false ∧
      writesH .nop = false) ∧ ∃ t : State, exec .incHl lenient = .next t := ⟨by decide, by decide, ⟨_, rfl⟩⟩

/-! The bus. -/

/-- Both ends of each of the ten ranges (20_memory R51). -/
def rangeEnds : List Word :=
  [0x0000#16, 0x7FFF#16, 0x8000#16, 0x9FFF#16, 0xA000#16, 0xBFFF#16, 0xC000#16, 0xDFFF#16, 0xE000#16, 0xFDFF#16,
    0xFE00#16, 0xFE9F#16, 0xFEA0#16, 0xFEFF#16, 0xFF00#16, 0xFF7F#16, 0xFF80#16, 0xFFFE#16, 0xFFFF#16]

theorem test_range_ends :
    rangeEnds.map regionOf =
      [.cartridge, .cartridge, .vram, .vram, .externalRam, .externalRam, .wram, .wram, .echoRam, .echoRam,
        .oam, .oam, .unusable, .unusable, .io, .io, .hram, .hram, .ie] := by decide

theorem witness_BusReadsByRegion : rangeEnds.all (fun addr => !accessStops lenient addr) = true := by decide

theorem witness_BusWritesByRegion :
    lenient.mem.wf = true ∧ rangeEnds.all (fun addr => !accessStops lenient addr) = true := by decide

theorem witness_WrittenByteReadsBack :
    lenient.mem.wf = true ∧ rangeEnds.all (fun addr => !accessStops lenient addr) = true := by decide

theorem witness_StrictAccessEndsTheInstruction :
    (readsHlFirst .decHl = true ∧ accessStops strictIllegal strictIllegal.hl = true) ∧ writesHlFirst .ldHlIncA = true ∧
      accessStops strictIllegal 0xE000#16 = true ∧ accessStops strictIllegal strictIllegal.bc = true ∧
      accessStops strictIllegal strictIllegal.de = true ∧
      (popsIn strictIllegal (.retCc .z) = true ∧ popsIn strictIllegal .reti = true ∧
        accessStops strictIllegal strictIllegal.sp = true) ∧
      (pushesIn strictIllegal (.callCcA16 .z 0x0150#16) = true ∧ pushesIn strictIllegal .pushAf = true ∧
        accessStops strictIllegal (strictIllegal.sp - 1#16) = true) := by decide

/-- The stack pointer where the second byte of a push, or of a pop, is the first illegal one. -/
def strictStack (sp : Word) : State := { strict with sp := sp }

theorem witness_StrictAccessEndsAtTheSecondByte :
    (pushesIn (strictStack 0xC001#16) (.rstVec 0x38#8) = true ∧
        accessStops (strictStack 0xC001#16) (0xC001#16 - 1#16) = false ∧
        accessStops (strictStack 0xC001#16) (0xC001#16 - 2#16) = true) ∧
      (popsIn (strictStack 0xDFFF#16) (.popRr .bc) = true ∧ accessStops (strictStack 0xDFFF#16) 0xDFFF#16 = false ∧
        accessStops (strictStack 0xDFFF#16) (0xDFFF#16 + 1#16) = true) ∧
      (accessStops strict 0x7FFF#16 = false ∧ accessStops strict (0x7FFF#16 + 1#16) = true) := by decide

/-! Loads. -/

theorem witness_LoadsReadMemory :
    HlGoes ∧ accessStops strict strict.bc = false ∧ accessStops strict strict.de = false ∧
      accessStops strict 0xFF80#16 = false ∧ accessStops strict (BitVec.ofNat 16 (0xFF00 + strict.c.toNat)) = false :=
  ⟨hlGoes, by decide⟩

theorem witness_HighPageLoadThroughC :
    accessStops strict (BitVec.ofNat 16 (0xFF00 + strict.c.toNat)) = false := by decide

theorem witness_StoresWriteMemory :
    HlGoes ∧ accessStops strict strict.bc = false ∧ accessStops strict strict.de = false ∧
      accessStops strict 0xFFFF#16 = false ∧ strict.mem.wf = true ∧ readsBack strict strict.hl = true :=
  ⟨hlGoes, by decide⟩

theorem witness_StoreOfSpIsLittleEndian :
    accessStops strict 0xDFFE#16 = false ∧ accessStops strict (0xDFFE#16 + 1#16) = false ∧
      accessStops lenient 0xDFFF#16 = false ∧ accessStops lenient (0xDFFF#16 + 1#16) = false ∧
      strict.mem.wf = true ∧ readsBack strict 0xDFFE#16 = true ∧ readsBack strict (0xDFFE#16 + 1#16) = true := by decide

/-! Arithmetic, rotates and shifts: the (HL) forms need an access that does not end the step. -/

theorem witness_AddWritesSumAndFlags : HlGoes := hlGoes
theorem witness_AdcWritesSumAndFlags : HlGoes := hlGoes
theorem witness_SubWritesDifferenceAndFlags : HlGoes := hlGoes
theorem witness_SbcWritesDifferenceAndFlags : HlGoes := hlGoes
theorem witness_LogicOpsWriteBitsAndFlags : HlGoes := hlGoes
theorem witness_CpSetsFlagsAndKeepsA : HlGoes := hlGoes
theorem witness_IncDec8KeepC : HlGoes ∧ strict.mem.wf = true ∧ readsBack strict strict.hl = true := ⟨hlGoes, by decide⟩
theorem witness_CbRotatesMoveOneBit : HlGoes ∧ strict.mem.wf = true ∧ readsBack strict strict.hl = true :=
  ⟨hlGoes, by decide⟩
theorem witness_CbShiftsAndSwap : HlGoes ∧ strict.mem.wf = true ∧ readsBack strict strict.hl = true :=
  ⟨hlGoes, by decide⟩
theorem witness_BitTestsOneBit : HlGoes ∧ 0 < 8 ∧ 7 < 8 := ⟨hlGoes, by decide⟩
theorem witness_ResAndSetChangeOneBit :
    HlGoes ∧ 0 < 8 ∧ 7 < 8 ∧ strict.mem.wf = true ∧ readsBack strict strict.hl = true := ⟨hlGoes, by decide⟩

/-! The stack and control transfer. -/

theorem witness_PushWritesTwoBytes :
    PushGoes strict ∧ PushGoes lenientIllegal ∧ strict.mem.wf = true ∧ readsBack strict (strict.sp - 1#16) = true ∧
      readsBack strict (strict.sp - 2#16) = true := by unfold PushGoes; decide

theorem witness_PopReadsTwoBytes : PopGoes strict ∧ PopGoes lenientIllegal := by unfold PopGoes; decide

theorem witness_PopAfterPushRestores :
    strict.mem.wf = true ∧ readsBack strict (strict.sp - 1#16) = true ∧ readsBack strict (strict.sp - 2#16) = true ∧
      strict.flagNibbleClear = true := by decide

theorem witness_JumpsSetPc :
    holds lenient .z = true ∧ holds lenient .nz = false ∧ holds lenient .c = true ∧ holds lenient .nc = false := by
  decide

theorem witness_CallsPushReturnAddress :
    PushGoes strict ∧ strict.mem.wf = true ∧ readsBack strict (strict.sp - 1#16) = true ∧
      readsBack strict (strict.sp - 2#16) = true ∧ holds strict .z = true ∧ holds strict .nz = false ∧ 0 < 8 ∧ 7 < 8 := by
  unfold PushGoes; decide

theorem witness_ReturnsPopPc :
    PopGoes strict ∧ PopGoes lenientIllegal ∧ holds strict .z = true ∧ holds strict .nz = false := by
  unfold PopGoes; decide

theorem witness_RetiReturnsAndSetsIme : PopGoes strict ∧ Part.ime ∈ [Part.ime] := by unfold PopGoes; decide

theorem witness_RetAfterCallComesBack :
    strict.mem.wf = true ∧ readsBack strict (strict.sp - 1#16) = true ∧ readsBack strict (strict.sp - 2#16) = true := by
  decide

/-! Miscellaneous. -/

theorem witness_DaaAdjustsA :
    flagBit lenient 6 = 0 ∧ flagBit ({ lenient with f := 0x40#8 } : State) 6 = 1 := by decide

theorem witness_DaaMakesDecimalArithmetic :
    99 < 100 ∧ 0 < 100 ∧ ({ lenient with a := 0x99#8 } : State).a = bcd 99 := by decide

theorem witness_IllegalOpcodesAreLogged :
    (Instr.illegalD3, 0xD3#8) ∈ illegalRows ∧ (Instr.illegalFD, 0xFD#8) ∈ illegalRows ∧
      lenient.params.strictOpcode = false ∧
      ({ lenient with params := { Params.default with strictOpcode := true } } : State).params.strictOpcode = true := by
  decide

theorem witness_PrefixRunsTheCbInstruction : accessStops strict strict.pc = false := by decide

end Sys2Proof.Tests
end

section
/-! SUPPORT. What the statements are made of, said once for every sitting: frames (`ChangesOnly`) of the named updates
and how they compose, the encoder's bytes in the words of the statements, and what a bus access does in those words. -/

namespace Sys2Proof.Machine

/-! Registers after a bus access. -/

variable (s : State) (addr : Word) (v : Byte)

@[simp] theorem getReg8_chargeRead (r : Reg8) : (chargeRead addr s).getReg8 r = s.getReg8 r := by
  cases r <;> simp [State.getReg8]

@[simp] theorem getReg8_writeByte (r : Reg8) : (writeByte addr v s).getReg8 r = s.getReg8 r := by
  cases r <;> simp [State.getReg8]

@[simp] theorem hl_chargeRead : (chargeRead addr s).hl = s.hl := by simp [State.hl]

@[simp] theorem hl_writeByte : (writeByte addr v s).hl = s.hl := by simp [State.hl]

end Sys2Proof.Machine

namespace Sys2Proof.Claims

open Sys2Proof.Machine

/-! Frames. -/

section
variable {s t u : State} {parts parts' : List Part}

theorem ChangesOnly.mono (h : ChangesOnly parts s t) (hsub : parts ⊆ parts') : ChangesOnly parts' s t :=
  fun p hp => h p fun hmem => hp (hsub hmem)

theorem Part.same_trans (p : Part) (h : p.same s t) (h' : p.same t u) : p.same s u := by
  cases p with
  | memory => exact ⟨h'.1.trans h.1, fun x => (h'.2 x).trans (h.2 x)⟩
  | _ => exact Eq.trans h' h

/-- Two updates in a row change what the one or the other changes. -/
theorem ChangesOnly.append (h : ChangesOnly parts s t) (h' : ChangesOnly parts' t u) :
    ChangesOnly (parts ++ parts') s u := by
  intro p hp
  rw [List.mem_append, not_or] at hp
  exact p.same_trans (h p hp.1) (h' p hp.2)

end

section
variable (s : State)

theorem changesOnly_setReg8 (r : Reg8) (v : Byte) : ChangesOnly [.reg r] s (s.setReg8 r v) := by
  intro p hp
  cases p with
  | reg r' => exact getReg8_setReg8_of_ne s v (by simpa using hp)
  | _ => simp [Part.same]

theorem changesOnly_setSp (v : Word) : ChangesOnly [.sp] s (s.setSp v) := by
  intro p hp
  cases p with
  | sp => simp at hp
  | _ => simp [Part.same]

theorem changesOnly_setFlags (fl : Flags) : ChangesOnly [.flags] s (s.setFlags fl) := by
  intro p hp
  cases p with
  | flags => simp at hp
  | _ => simp [Part.same]

theorem changesOnly_internal (n : Nat) : ChangesOnly [.ticks] s (internal n s) := by
  intro p hp
  cases p with
  | ticks => simp at hp
  | reg r => exact getReg8_tick s r (4 * n)
  | _ => simp [Part.same]

/-- Writing a 16-bit register is writing SP, or the two halves one after the other. -/
theorem changesOnly_setReg16 (rr : Reg16) (v : Word) : ChangesOnly (parts16 rr) s (s.setReg16 rr v) := by
  cases rr with
  | bc => exact (changesOnly_setReg8 s .b (hiByte v)).append (changesOnly_setReg8 _ .c (loByte v))
  | de => exact (changesOnly_setReg8 s .d (hiByte v)).append (changesOnly_setReg8 _ .e (loByte v))
  | hl => exact (changesOnly_setReg8 s .h (hiByte v)).append (changesOnly_setReg8 _ .l (loByte v))
  | sp => exact changesOnly_setSp s v

theorem changesOnly_setHl (v : Word) : ChangesOnly [.reg .h, .reg .l] s (s.setHl v) := changesOnly_setReg16 s .hl v

end

section
variable {s : State} {addr : Word}

/-- A read that does not stop the step takes time and may leave a record (20_memory R52, R54). -/
theorem changesOnly_chargeRead (h : accessStops s addr = false) :
    ChangesOnly [.ticks, .diag] s (chargeRead addr s) := by
  intro p hp
  cases p with
  | ticks | diag => simp at hp
  | fatal => exact chargeRead_fatal_of_go h
  | _ => simp [Part.same]

/-- A write that does not stop the step changes memory, takes time and may leave a record (20_memory R53, R54). -/
theorem changesOnly_writeByte (h : accessStops s addr = false) (v : Byte) :
    ChangesOnly [.memory, .ticks, .diag] s (writeByte addr v s) := by
  intro p hp
  cases p with
  | memory | ticks | diag => simp at hp
  | fatal => exact writeByte_fatal_of_go h
  | _ => simp [Part.same]

end

/-! The bytes of an instruction. -/

theorem ofNat_reg8Index (r : Reg8) : BitVec.ofNat 8 r.index = slot r := by cases r <;> rfl

theorem ofNat_reg16Index (rr : Reg16) : BitVec.ofNat 8 rr.index = rpIndex rr := by cases rr <;> rfl

theorem opcodeWith_eq (base place field : Nat) :
    opcodeWith base place field = BitVec.ofNat 8 base + BitVec.ofNat 8 place * BitVec.ofNat 8 field := by
  rw [opcodeWith, BitVec.ofNat_add, BitVec.ofNat_mul]

theorem opcodeWith_reg8 (base place : Nat) (r : Reg8) :
    opcodeWith base place r.index = BitVec.ofNat 8 base + BitVec.ofNat 8 place * slot r := by
  rw [opcodeWith_eq, ofNat_reg8Index]

theorem opcodeWith_reg16 (base place : Nat) (rr : Reg16) :
    opcodeWith base place rr.index = BitVec.ofNat 8 base + BitVec.ofNat 8 place * rpIndex rr := by
  rw [opcodeWith_eq, ofNat_reg16Index]

theorem loByte_eq_lowByte (v : Word) : loByte v = lowByte v := by
  apply BitVec.eq_of_toNat_eq
  simp [loByte, lowByte]

theorem hiByte_eq_highByte (v : Word) : hiByte v = highByte v := by
  apply BitVec.eq_of_toNat_eq
  simp [hiByte, highByte, Nat.shiftRight_eq_div_pow]

theorem withWord_eq (op : Byte) (v : Word) : withWord op v = [op, lowByte v, highByte v] := by
  rw [withWord, loByte_eq_lowByte, hiByte_eq_highByte]

/-- The high page is addressed by adding the byte to 0xFF00: the two have no bit in common (30_encoding R98). -/
theorem highPage_eq (v : Byte) : highPage v = BitVec.ofNat 16 (0xFF00 + v.toNat) := by
  apply BitVec.eq_of_toNat_eq
  have hor : 0xFF00 ||| v.toNat = 0xFF00 + v.toNat :=
    (Nat.two_pow_add_eq_or_of_lt (i := 8) v.isLt 0xFF).symm
  have hmod : v.toNat % 65536 = v.toNat := Nat.mod_eq_of_lt (by omega)
  simp [highPage, hmod, hor]
  omega

/-! Values and flags. -/

theorem value16_eq_toNat (s : State) (rr : Reg16) : value16 s rr = (s.getReg16 rr).toNat := by
  cases rr with
  | bc | de | hl => exact (toNat_joinBytes _ _).symm
  | sp => rfl

theorem value16_setReg16 (s : State) (rr : Reg16) (v : Word) : value16 (s.setReg16 rr v) rr = v.toNat := by
  rw [value16_eq_toNat, getReg16_setReg16]

theorem value16_setHl (s : State) (v : Word) : value16 (s.setHl v) .hl = v.toNat := value16_setReg16 s .hl v

/-- HL moved by `step` is moved modulo 65536. -/
theorem value16_setHl_hl_add (s t : State) (step : Nat) :
    value16 (t.setHl (s.hl + BitVec.ofNat 16 step)) .hl = (value16 s .hl + step) % 65536 := by
  rw [value16_setHl, value16_eq_toNat, State.getReg16, BitVec.toNat_add, BitVec.toNat_ofNat, Nat.add_mod_mod]

theorem hasFlags_of_f {t : State} {fl : Flags} (h : t.f = fl.byte) : HasFlags t fl.z fl.n fl.h fl.c := by
  obtain ⟨z, n, h', c⟩ := fl
  rw [HasFlags, h]
  clear h
  revert z n h' c
  decide

/-- Adding the sign-extended byte is adding it modulo 65536, or it less 256 where bit 7 is set (00_scope R7). -/
theorem toNat_add_sext16 (w : Word) (v : Byte) : (w + sext16 v).toNat = plusOffset w.toNat v := by
  have hv := v.isLt
  have hmsb : v.msb = decide (128 ≤ v.toNat) := BitVec.msb_eq_decide v
  rw [BitVec.toNat_add, sext16, BitVec.toNat_signExtend, hmsb, plusOffset]
  simp only [BitVec.toNat_setWidth, decide_eq_true_eq]
  split <;> split <;> omega

/-! The bus. -/

theorem readsZeroInGap (s : State) (addr : Word) : ReadsZeroInGap s addr := by
  intro h
  rw [readByte]
  cases hr : regionOf addr <;> simp [hr, Region.legal] at h ⊢

/-- A write sets the cell at its address where the region stores it, and no other cell (20_memory R53, R58). -/
theorem get_mem_writeByte {s : State} (hm : s.mem.wf = true) (addr : Word) (v : Byte) (x : Nat) :
    (writeByte addr v s).mem.get x = if x = addr.toNat ∧ storesAt s addr = true then v else s.mem.get x := by
  have hset : (s.mem.set addr.toNat v).get x = if x = addr.toNat then v else s.mem.get x := by
    split
    · next h => rw [h, Memory.get_set_same addr.toNat v hm]
    · next h => exact Memory.get_set_of_ne s.mem v h
  cases hr : regionOf addr with
  | cartridge => cases hc : s.params.cartWrite <;> simp [writeByte, cartWrite, storesAt, hr, hc, hset]
  | wram | io | hram | ie => simp [writeByte, storesAt, hr, hset]
  | vram | externalRam | echoRam | oam | unusable => simp [writeByte, storesAt, hr]

theorem stored_writeByte (s : State) (addr : Word) (v : Byte) : Stored s (writeByte addr v s) addr v :=
  ⟨fun _ hx => readByte_writeByte_of_ne (by simpa using hx), fun hm => get_mem_writeByte hm addr v,
    fun hm hback => readByte_writeByte_same hm hback⟩

/-- What is stored is seen in the memory and the parameters of the later state alone. -/
theorem Stored.congr {s t u : State} {addr : Word} {v : Byte} (h : Stored s t addr v) (hm : u.mem = t.mem)
    (hp : u.params = t.params) : Stored s u addr v := by
  obtain ⟨hother, hcells, hback⟩ := h
  exact ⟨fun x hx => (readByte_congr hm hp x).trans (hother x hx), fun hwf x => by rw [hm, hcells hwf],
    fun hwf hr => (readByte_congr hm hp addr).trans (hback hwf hr)⟩

end Sys2Proof.Claims
end

section
/-! The statements about loads (40_load R120 to R142, 42_alu16 R193, R194). -/

namespace Sys2Proof.Claims

open Sys2Proof.Machine

/-! Loads between registers. -/

theorem encode_ldRR (r r' : Reg8) : encode (.ldRR r r') = [0x40#8 + 8#8 * slot r + slot r'] := by
  rw [encode, opcodeWith_reg8, BitVec.ofNat_add, ofNat_reg8Index, BitVec.add_assoc, BitVec.add_comm (slot r'),
    ← BitVec.add_assoc]

/-- Settles O25: each of the four is one register write, `LD SP,HL` with an internal cycle after it. -/
theorem registerLoadsCopy : Obligations.RegisterLoadsCopy := by
  refine ⟨fun s r r' => ?_, fun s r n => ?_, fun s rr n => ?_, fun s => ?_⟩
  · exact ⟨s.setReg8 r (s.getReg8 r'), ⟨encode_ldRR r r', rfl, by simp⟩, by simp, changesOnly_setReg8 s r _⟩
  · exact ⟨s.setReg8 r n, ⟨by rw [encode, opcodeWith_reg8], rfl, by simp⟩, by simp, changesOnly_setReg8 s r n⟩
  · exact ⟨s.setReg16 rr n, ⟨by rw [encode, opcodeWith_reg16, withWord_eq], rfl, by simp⟩, value16_setReg16 s rr n,
      changesOnly_setReg16 s rr n⟩
  · exact ⟨internal 1 (s.setSp s.hl), ⟨rfl, rfl, by simp⟩, (value16_eq_toNat s .hl).symm,
      (changesOnly_setSp s s.hl).append (changesOnly_internal _ 1)⟩

/-! Loads from memory. -/

section
variable {i : Instr} {bytes : List Byte} {cycles step : Nat} {r : Reg8} {addr : State → Word} {v : State → Byte}

/-- Every instruction that runs as `loadReg8`: the cycles are those of the fetch and of one bus read. -/
theorem loadsByte_of_loadReg8 (henc : encode i = bytes) (hcycles : 4 * bytes.length + 4 = cycles)
    (hexec : ∀ s, exec i s = loadReg8 r (addr s) s) : LoadsByte i bytes cycles r addr := by
  intro s hgo
  refine ⟨(chargeRead (addr s) s).setReg8 r (readByte s (addr s)), ⟨henc, ?_, ?_⟩, by simp, readsZeroInGap s _, ?_, ?_⟩
  · rw [hexec, loadReg8, readThen_of_go hgo]
  · simp only [setReg8_ticks, chargeRead_ticks]
    omega
  · rw [setReg8_diag, chargeRead_diag]
  · exact ((changesOnly_chargeRead hgo).append (changesOnly_setReg8 _ r _)).mono (by simp)

/-- As `loadsByte_of_loadReg8`, with HL moved after the read. -/
theorem loadsAMovingHl_of_readThen (henc : encode i = bytes) (hcycles : 4 * bytes.length + 4 = cycles)
    (hexec : ∀ s, exec i s =
      readThen s.hl s fun v t => .next ((t.setReg8 .a v).setHl (t.hl + BitVec.ofNat 16 step))) :
    LoadsAMovingHl i bytes cycles step := by
  intro s hgo
  refine ⟨((chargeRead s.hl s).setReg8 .a (readByte s s.hl)).setHl (s.hl + BitVec.ofNat 16 step), ⟨henc, ?_, ?_⟩,
    by simp, readsZeroInGap s _, ?_, ?_, ?_⟩
  · rw [hexec, readThen_of_go hgo, hl_chargeRead]
  · simp only [setHl_ticks, setReg8_ticks, chargeRead_ticks]
    omega
  · exact value16_setHl_hl_add s _ step
  · rw [setHl_diag, setReg8_diag, chargeRead_diag]
  · exact (((changesOnly_chargeRead hgo).append (changesOnly_setReg8 _ .a _)).append (changesOnly_setHl _ _)).mono
      (by simp)

/-- Every instruction that runs as `storeByte`: the cycles are those of the fetch and of one bus write. -/
theorem storesByte_of_storeByte (henc : encode i = bytes) (hcycles : 4 * bytes.length + 4 = cycles)
    (hexec : ∀ s, exec i s = storeByte (addr s) (v s) s) : StoresByte i bytes cycles addr v := by
  intro s hgo
  refine ⟨writeByte (addr s) (v s) s, ⟨henc, ?_, ?_⟩, stored_writeByte s _ _, writeByte_diag,
    changesOnly_writeByte hgo _⟩
  · rw [hexec, storeByte, writeThen_of_go hgo]
  · rw [writeByte_ticks]
    omega

/-- As `storesByte_of_storeByte`, with HL moved after the write. -/
theorem storesAMovingHl_of_writeThen (henc : encode i = bytes) (hcycles : 4 * bytes.length + 4 = cycles)
    (hexec : ∀ s, exec i s = writeThen s.hl s.a s fun t => .next (t.setHl (t.hl + BitVec.ofNat 16 step))) :
    StoresAMovingHl i bytes cycles step := by
  intro s hgo
  refine ⟨(writeByte s.hl s.a s).setHl (s.hl + BitVec.ofNat 16 step), ⟨henc, ?_, ?_⟩,
    (stored_writeByte s _ _).congr rfl rfl, ?_, ?_, ?_⟩
  · rw [hexec, writeThen_of_go hgo, hl_writeByte]
  · rw [setHl_ticks, writeByte_ticks]
    omega
  · exact value16_setHl_hl_add s _ step
  · rw [setHl_diag, writeByte_diag]
  · exact ((changesOnly_writeByte hgo _).append (changesOnly_setHl _ _)).mono (by simp)

end

/-- Moving HL down by one is adding 65535 modulo 65536. -/
theorem sub_one_eq_add (w : Word) : w - 1#16 = w + 65535#16 := BitVec.sub_eq_add_neg w 1#16

/-- Settles O26: six forms are `loadReg8` at their own address, the last two move HL after the same read. -/
theorem loadsReadMemory : Obligations.LoadsReadMemory := by
  refine ⟨fun r => ?_, ?_, ?_, fun addr => ?_, fun n => ?_, ?_, ?_⟩
  · exact loadsByte_of_loadReg8 (by rw [encode, opcodeWith_reg8]) rfl fun _ => rfl
  · exact loadsByte_of_loadReg8 rfl rfl fun _ => rfl
  · exact loadsByte_of_loadReg8 rfl rfl fun _ => rfl
  · exact loadsByte_of_loadReg8 (withWord_eq _ addr) rfl fun _ => rfl
  · exact loadsByte_of_loadReg8 rfl rfl fun s => by rw [← highPage_eq]; rfl
  · exact loadsAMovingHl_of_readThen rfl rfl fun _ => rfl
  · exact loadsAMovingHl_of_readThen rfl rfl fun s => by simp only [exec, execLdAHlDec, sub_one_eq_add]

/-- Settles O28: seven forms are `storeByte` at their own address, the last two move HL after the same write. -/
theorem storesWriteMemory : Obligations.StoresWriteMemory := by
  refine ⟨fun r => ?_, fun n => ?_, ?_, ?_, fun addr => ?_, fun n => ?_, ?_, ?_, ?_⟩
  · exact storesByte_of_storeByte (by rw [encode, opcodeWith_reg8, BitVec.one_mul]) rfl fun _ => rfl
  · exact storesByte_of_storeByte rfl rfl fun _ => rfl
  · exact storesByte_of_storeByte rfl rfl fun _ => rfl
  · exact storesByte_of_storeByte rfl rfl fun _ => rfl
  · exact storesByte_of_storeByte (withWord_eq _ addr) rfl fun _ => rfl
  · exact storesByte_of_storeByte rfl rfl fun s => by rw [← highPage_eq]; rfl
  · exact storesByte_of_storeByte rfl rfl fun s => by rw [← highPage_eq]; rfl
  · exact storesAMovingHl_of_writeThen rfl rfl fun _ => rfl
  · exact storesAMovingHl_of_writeThen rfl rfl fun s => by simp only [exec, execLdHlDecA, sub_one_eq_add]

/-! SP plus a signed offset. -/

/-- The flags of `sp_add` (42_alu16 R194). -/
def spFlags (sp : Word) (n : Byte) : Flags := { z := false, n := false, h := (spAdd sp n).h, c := (spAdd sp n).c }

theorem exec_ldHlSpE8 (n : Byte) (s : State) : exec (.ldHlSpE8 n) s =
    .next (internal 1 ((s.setHl (s.sp + sext16 n)).setFlags (spFlags s.sp n))) := rfl

theorem exec_addSpE8 (n : Byte) (s : State) : exec (.addSpE8 n) s =
    .next (internal 2 ((s.setSp (s.sp + sext16 n)).setFlags (spFlags s.sp n))) := rfl

theorem hasFlags_of_f_eq_spFlags {t : State} {sp : Word} {n : Byte} (h : t.f = (spFlags sp n).byte) :
    HasFlags t false false (decide (sp.toNat % 16 + n.toNat % 16 > 0x0F)) (decide (sp.toNat % 256 + n.toNat > 0xFF)) :=
  hasFlags_of_f h

/-- Settles O30: both write `sp_add(SP, e8)` and its flags, then pass one or two internal cycles. -/
theorem spOffsetFlagsComeFromLowByte : Obligations.SpOffsetFlagsComeFromLowByte := by
  refine ⟨fun s n => ?_, fun s n => ?_⟩
  · refine ⟨_, ⟨rfl, exec_ldHlSpE8 n s, by simp⟩, ?_, hasFlags_of_f_eq_spFlags (byte_and_mask _), ?_⟩
    · exact (value16_setHl s _).trans (toNat_add_sext16 s.sp n)
    · exact ((changesOnly_setHl s _).append (changesOnly_setFlags _ _)).append (changesOnly_internal _ 1)
  · refine ⟨_, ⟨rfl, exec_addSpE8 n s, by simp⟩, toNat_add_sext16 s.sp n,
      hasFlags_of_f_eq_spFlags (byte_and_mask _), ?_⟩
    exact ((changesOnly_setSp s _).append (changesOnly_setFlags _ _)).append (changesOnly_internal _ 2)

end Sys2Proof.Claims
end

section
/-! The statements about 8-bit addition and subtraction on A (41_alu8 R150 to R164). -/

namespace Sys2Proof.Machine

/-! Writing A and the flags. -/

section
variable (w : AluResult) (s : State)

@[simp] theorem writeA_a : (writeA w s).a = w.r := rfl

@[simp] theorem writeA_f : (writeA w s).f = w.fl.byte := byte_and_mask w.fl

end

/-! The ALU functions in the arithmetic of the statements. -/

section
variable (a b : Byte) (cin : Bool)

theorem toNat_add8_r : (add8 a b cin).r.toNat = (a.toNat + b.toNat + cin.toNat) % 256 := BitVec.toNat_ofNat _ 8

/-- The 512 keeps the difference above zero: at most 255 and a borrow are taken away. -/
theorem toNat_sub8_r : (sub8 a b cin).r.toNat = (a.toNat + 512 - b.toNat - cin.toNat) % 256 := by
  have hb := b.isLt
  have hcin := cin.toNat_le
  rw [sub8, BitVec.toNat_ofInt]
  omega

theorem add8_z : (add8 a b cin).fl.z = decide ((a.toNat + b.toNat + cin.toNat) % 256 = 0) := by
  rw [← toNat_add8_r]
  exact decide_eq_decide.2 BitVec.toNat_inj.symm

theorem sub8_z : (sub8 a b cin).fl.z = decide ((a.toNat + 512 - b.toNat - cin.toNat) % 256 = 0) := by
  rw [← toNat_sub8_r]
  exact decide_eq_decide.2 BitVec.toNat_inj.symm

end

end Sys2Proof.Machine

namespace Sys2Proof.Claims

open Sys2Proof.Machine

theorem changesOnly_writeA (w : AluResult) (s : State) : ChangesOnly [.reg .a, .flags] s (writeA w s) :=
  (changesOnly_setReg8 s .a w.r).append (changesOnly_setFlags _ w.fl)

/-! What the results say. -/

theorem carry_eq_toNat_flagC (s : State) : carry s = s.flagC.toNat := (Nat.toNat_testBit s.f.toNat 4).symm

section
variable {s t : State} {v : Byte} {cin : Bool}

theorem addPost_of_add8 (ha : t.a = (add8 s.a v cin).r) (hf : t.f = (add8 s.a v cin).fl.byte) :
    AddPost cin.toNat s v t := by
  refine ⟨by rw [ha, toNat_add8_r], ?_⟩
  rw [← add8_z]
  exact hasFlags_of_f hf

theorem subFlags_of_sub8 (hf : t.f = (sub8 s.a v cin).fl.byte) : SubFlags cin.toNat s v t := by
  rw [SubFlags, ← sub8_z]
  exact hasFlags_of_f hf

theorem subPost_of_sub8 (ha : t.a = (sub8 s.a v cin).r) (hf : t.f = (sub8 s.a v cin).fl.byte) :
    SubPost cin.toNat s v t :=
  ⟨by rw [ha, toNat_sub8_r], subFlags_of_sub8 hf⟩

end

/-! The three source forms. -/

section
variable {reg : Reg8 → Instr} {hl : Instr} {imm : Byte → Instr} {base : Nat} {immOp : Byte} {parts : List Part}
  {post : State → Byte → State → Prop} {run : Byte → State → State}

/-- The three forms of an operation that runs as `run` on its source byte. What `run` does may depend on A and F, which
the read of (HL) leaves; it takes no time and logs nothing, so the cycles are those of the fetch and of that read. -/
theorem aluForms_of_run
    (hencode : (∀ r, encode (reg r) = [opcodeWith base 1 r.index]) ∧ encode hl = [BitVec.ofNat 8 base + 6#8] ∧
      ∀ n, encode (imm n) = [immOp, n])
    (hexec : (∀ s r, exec (reg r) s = .next (run (s.getReg8 r) s)) ∧ (∀ s, exec hl s = withHl s run) ∧
      ∀ s n, exec (imm n) s = .next (run n s))
    (hframe : ∀ v s, ChangesOnly parts s (run v s)) (hticks : .ticks ∉ parts) (hdiag : .diag ∉ parts)
    (hpost : ∀ s t v, t.a = s.a → t.f = s.f → post s v (run v t)) :
    AluForms reg hl imm (BitVec.ofNat 8 base) immOp parts post := by
  obtain ⟨hencReg, hencHl, hencImm⟩ := hencode
  obtain ⟨hexecReg, hexecHl, hexecImm⟩ := hexec
  have run_ticks (v s) : (run v s).ticks = s.ticks := hframe v s .ticks hticks
  have run_diag (v s) : (run v s).diag = s.diag := hframe v s .diag hdiag
  refine ⟨fun s r => ?_, fun s hgo => ?_, fun s n => ?_⟩
  · refine ⟨_, ⟨?_, hexecReg s r, ?_⟩, hpost s s _ rfl rfl, hframe _ s⟩
    · rw [hencReg, opcodeWith_reg8, BitVec.one_mul]
    · rw [run_ticks, List.length_singleton]
  · refine ⟨run (readByte s s.hl) (chargeRead s.hl s), ⟨hencHl, ?_, ?_⟩,
      hpost s _ _ (chargeRead_a ..) (chargeRead_f ..), readsZeroInGap s _, ?_,
      (changesOnly_chargeRead hgo).append (hframe _ _)⟩
    · rw [hexecHl, withHl, readThen_of_go hgo]
    · rw [run_ticks, chargeRead_ticks, List.length_singleton]
    · rw [run_diag, chargeRead_diag]
  · refine ⟨_, ⟨hencImm n, hexecImm s n, ?_⟩, hpost s s _ rfl rfl, hframe _ s⟩
    rw [run_ticks]
    rfl

end

section
variable {reg : Reg8 → Instr} {hl : Instr} {imm : Byte → Instr} {base : Nat} {immOp : Byte}
  {post : State → Byte → State → Prop} {result : Byte → Byte → Bool → AluResult}

/-- The three forms of an operation that writes A and all flags with what `result` makes of A, the source byte and the
carry flag. -/
theorem aluForms_of_writeA
    (hencode : (∀ r, encode (reg r) = [opcodeWith base 1 r.index]) ∧ encode hl = [BitVec.ofNat 8 base + 6#8] ∧
      ∀ n, encode (imm n) = [immOp, n])
    (hexec : (∀ s r, exec (reg r) s = .next (writeA (result s.a (s.getReg8 r) s.flagC) s)) ∧
      (∀ s, exec hl s = withHl s fun v t => writeA (result t.a v t.flagC) t) ∧
      ∀ s n, exec (imm n) s = .next (writeA (result s.a n s.flagC) s))
    (hpost : ∀ s t v, t.a = (result s.a v s.flagC).r → t.f = (result s.a v s.flagC).fl.byte → post s v t) :
    AluForms reg hl imm (BitVec.ofNat 8 base) immOp [.reg .a, .flags] post := by
  refine aluForms_of_run (run := fun v s => writeA (result s.a v s.flagC) s) hencode hexec
    (fun _ s => changesOnly_writeA _ s) (by decide) (by decide) fun s t v ha hf => ?_
  have hc : t.flagC = s.flagC := congrArg (fun f : Byte => f.getLsbD 4) hf
  exact hpost s _ v (by rw [writeA_a, ha, hc]) (by rw [writeA_f, ha, hc])

end

/-- Settles O31: the three forms write `add8` with no carry-in. -/
theorem addWritesSumAndFlags : Obligations.AddWritesSumAndFlags :=
  aluForms_of_writeA (result := fun a v _ => add8 a v false) ⟨fun _ => rfl, rfl, fun _ => rfl⟩
    ⟨fun _ _ => rfl, fun _ => rfl, fun _ _ => rfl⟩ fun _ _ _ => addPost_of_add8

/-- Settles O32: the three forms write `add8` with the carry flag as the carry-in. -/
theorem adcWritesSumAndFlags : Obligations.AdcWritesSumAndFlags :=
  aluForms_of_writeA (result := add8) ⟨fun _ => rfl, rfl, fun _ => rfl⟩
    ⟨fun _ _ => rfl, fun _ => rfl, fun _ _ => rfl⟩ fun s _ _ ha hf => by
      rw [carry_eq_toNat_flagC]
      exact addPost_of_add8 ha hf

/-- Settles O33: the three forms write `sub8` with no borrow-in. -/
theorem subWritesDifferenceAndFlags : Obligations.SubWritesDifferenceAndFlags :=
  aluForms_of_writeA (result := fun a v _ => sub8 a v false) ⟨fun _ => rfl, rfl, fun _ => rfl⟩
    ⟨fun _ _ => rfl, fun _ => rfl, fun _ _ => rfl⟩ fun _ _ _ => subPost_of_sub8

/-- Settles O34: the three forms write `sub8` with the carry flag as the borrow-in. -/
theorem sbcWritesDifferenceAndFlags : Obligations.SbcWritesDifferenceAndFlags :=
  aluForms_of_writeA (result := sub8) ⟨fun _ => rfl, rfl, fun _ => rfl⟩
    ⟨fun _ _ => rfl, fun _ => rfl, fun _ _ => rfl⟩ fun s _ _ ha hf => by
      rw [carry_eq_toNat_flagC]
      exact subPost_of_sub8 ha hf

end Sys2Proof.Claims
end

section
/-! Read-modify-write of a byte (20_memory R62), and with it the statement about 8-bit increment and decrement
(43_incdec8 R200 to R203). -/

namespace Sys2Proof.Machine

@[simp] theorem flagC_chargeRead (addr : Word) (s : State) : (chargeRead addr s).flagC = s.flagC := by
  simp [State.flagC]

/-! The increment and decrement in the arithmetic of the statement. -/

section
variable (v : Byte) (c : Bool)

theorem toNat_inc8_r : (inc8 v c).r.toNat = (v.toNat + 1) % 256 := BitVec.toNat_add v 1#8

/-- Taking one away is adding 255 modulo 256. -/
theorem toNat_dec8_r : (dec8 v c).r.toNat = (v.toNat + 255) % 256 := by
  rw [dec8, BitVec.sub_eq_add_neg]
  exact BitVec.toNat_add v (-1#8)

theorem inc8_z : (inc8 v c).fl.z = decide ((v.toNat + 1) % 256 = 0) := by
  rw [← toNat_inc8_r v c]
  exact decide_eq_decide.2 BitVec.toNat_inj.symm

theorem dec8_z : (dec8 v c).fl.z = decide ((v.toNat + 255) % 256 = 0) := by
  rw [← toNat_dec8_r v c]
  exact decide_eq_decide.2 BitVec.toNat_inj.symm

end

end Sys2Proof.Machine

namespace Sys2Proof.Claims

open Sys2Proof.Machine

theorem decide_carry_eq_one (s : State) : decide (carry s = 1) = s.flagC := by
  rw [carry_eq_toNat_flagC]
  cases s.flagC <;> rfl

/-- As `Stored.congr`, of the earlier state. -/
theorem Stored.congr_left {s s' t : State} {addr : Word} {v : Byte} (h : Stored s t addr v) (hm : s'.mem = s.mem)
    (hp : s'.params = s.params) : Stored s' t addr v := by
  obtain ⟨hother, hcells, hback⟩ := h
  have hstores : storesAt s' addr = storesAt s addr := by rw [storesAt, storesAt, hp]
  have hreads : readsBack s' addr = readsBack s addr := by simp only [readsBack, keepsByte, hp]
  refine ⟨fun x hx => (hother x hx).trans (readByte_congr hm hp x).symm, fun hwf x => ?_, fun hwf hr => ?_⟩
  · rw [hstores, hm]
    exact hcells (hm ▸ hwf) x
  · exact hback (hm ▸ hwf) (hreads ▸ hr)

/-! The two forms of an operation that rewrites a byte. -/

section
variable {reg : Reg8 → Instr} {hl : Instr} {regBytes : Reg8 → List Byte} {hlBytes : List Byte}
  {regCycles hlCycles : Nat} {parts : List Part} {result : State → Byte → Nat} {flags : State → Byte → State → Prop}

/-- The two forms of an operation that writes `new` of the byte and the carry flag back where the byte came from, and
then runs `finish`, which writes at most the flags. The read and the write at HL are the only accesses, so the cycles
are those of the fetch and, for the byte at HL, of these two. -/
theorem rewriteForms_of_finish {new : Byte → Bool → Byte} {finish : Byte → Bool → State → State}
    (hencode : (∀ r, encode (reg r) = regBytes r) ∧ encode hl = hlBytes)
    (hcycles : (∀ r, 4 * (regBytes r).length = regCycles) ∧ 4 * hlBytes.length + 8 = hlCycles)
    (hexec : (∀ s r, exec (reg r) s =
        .next (finish (s.getReg8 r) s.flagC (s.setReg8 r (new (s.getReg8 r) s.flagC)))) ∧
      ∀ s, exec hl s = readThen s.hl s fun v t =>
        writeThen t.hl (new v t.flagC) t fun u => .next (finish v t.flagC u))
    (hframe : ∀ v c s, ChangesOnly parts s (finish v c s)) (hparts : parts ⊆ [.flags])
    (hresult : ∀ s v, (new v s.flagC).toNat = result s v) (hflags : ∀ s t v, flags s v (finish v s.flagC t)) :
    RewriteForms reg hl regBytes hlBytes regCycles hlCycles parts result flags := by
  obtain ⟨hencReg, hencHl⟩ := hencode
  obtain ⟨hcycReg, hcycHl⟩ := hcycles
  obtain ⟨hexecReg, hexecHl⟩ := hexec
  have finish_same {p : Part} (hp : p ∉ [Part.flags]) (v c s) : p.same s (finish v c s) :=
    hframe v c s p fun hmem => hp (hparts hmem)
  have finish_ticks (v c s) : (finish v c s).ticks = s.ticks := finish_same (p := .ticks) (by decide) v c s
  have finish_diag (v c s) : (finish v c s).diag = s.diag := finish_same (p := .diag) (by decide) v c s
  have finish_reg (r v c s) : (finish v c s).getReg8 r = s.getReg8 r := finish_same (p := .reg r) (by simp) v c s
  refine ⟨fun s r => ?_, fun s hgo => ?_⟩
  · refine ⟨_, ⟨hencReg r, hexecReg s r, ?_⟩, ?_, hflags s _ _, (changesOnly_setReg8 s r _).append (hframe _ _ _)⟩
    · rw [finish_ticks, setReg8_ticks, hcycReg]
    · rw [finish_reg, getReg8_setReg8, hresult]
  · have hgo' : accessStops (chargeRead s.hl s) s.hl = false := by rw [accessStops_chargeRead, hgo]
    have hnew : BitVec.ofNat 8 (result s (readByte s s.hl)) = new (readByte s s.hl) s.flagC := by
      rw [← hresult, BitVec.ofNat_toNat, BitVec.setWidth_eq]
    refine ⟨finish (readByte s s.hl) s.flagC
        (writeByte s.hl (new (readByte s s.hl) s.flagC) (chargeRead s.hl s)),
      ⟨hencHl, ?_, ?_⟩, ?_, hflags s _ _, readsZeroInGap s _, ?_, ?_⟩
    · rw [hexecHl, readThen_of_go hgo, hl_chargeRead, flagC_chargeRead, writeThen_of_go hgo']
    · rw [finish_ticks, writeByte_ticks, chargeRead_ticks]
      omega
    · rw [hnew]
      exact ((stored_writeByte _ _ _).congr_left (chargeRead_mem ..).symm (chargeRead_params ..).symm).congr
        (finish_same (p := .memory) (by decide) _ _ _).1 (finish_same (p := .params) (by decide) _ _ _)
    · rw [finish_diag, writeByte_diag, chargeRead_diag]
    · exact (((changesOnly_chargeRead hgo).append (changesOnly_writeByte hgo' _)).append (hframe _ _ _)).mono
        (by simp)

/-- The two forms of an operation that also writes all flags, with what `f` makes of the byte and the carry flag. -/
theorem rewriteForms_of_modifyHl {f : Byte → Bool → AluResult}
    (hencode : (∀ r, encode (reg r) = regBytes r) ∧ encode hl = hlBytes)
    (hcycles : (∀ r, 4 * (regBytes r).length = regCycles) ∧ 4 * hlBytes.length + 8 = hlCycles)
    (hexec : (∀ s r, exec (reg r) s =
        .next ((s.setReg8 r (f (s.getReg8 r) s.flagC).r).setFlags (f (s.getReg8 r) s.flagC).fl)) ∧
      ∀ s, exec hl s = modifyHl (fun v t => f v t.flagC) s)
    (hresult : ∀ s v, (f v s.flagC).r.toNat = result s v)
    (hflags : ∀ s t v, t.f = (f v s.flagC).fl.byte → flags s v t) :
    RewriteForms reg hl regBytes hlBytes regCycles hlCycles [.flags] result flags :=
  rewriteForms_of_finish (new := fun v c => (f v c).r) (finish := fun v c t => t.setFlags (f v c).fl) hencode hcycles
    hexec (fun _ _ t => changesOnly_setFlags t _) (List.Subset.refl _) hresult
    fun s _ v => hflags s _ v (byte_and_mask _)

end

/-- Settles O39: `INC` rewrites the byte with `inc8` and `DEC` with `dec8`, both of which pass the carry flag on. -/
theorem incDec8KeepC : Obligations.IncDec8KeepC := by
  constructor
  · exact rewriteForms_of_modifyHl (f := inc8) ⟨fun r => by rw [encode, opcodeWith_reg8], rfl⟩ ⟨fun _ => rfl, rfl⟩
      ⟨fun _ _ => rfl, fun _ => rfl⟩ (fun s v => toNat_inc8_r v s.flagC) fun s t v hf => by
        rw [decide_carry_eq_one, ← inc8_z v s.flagC]
        exact hasFlags_of_f hf
  · exact rewriteForms_of_modifyHl (f := dec8) ⟨fun r => by rw [encode, opcodeWith_reg8], rfl⟩ ⟨fun _ => rfl, rfl⟩
      ⟨fun _ _ => rfl, fun _ => rfl⟩ (fun s v => toNat_dec8_r v s.flagC) fun s t v hf => by
        rw [decide_carry_eq_one, ← dec8_z v s.flagC]
        exact hasFlags_of_f hf

end Sys2Proof.Claims
end

section
/-! The statements about PUSH and POP (45_stack R220 to R225), from the spec of `Push16` and `Pop16` in the words of
the statements. -/

namespace Sys2Proof.Machine

/-- The mask on F takes the low nibble away (10_state R21). -/
theorem toNat_and_mask (v : Byte) : (v &&& 0xF0#8).toNat = v.toNat / 16 * 16 := by
  have hv := v.isLt
  have hhigh : (v.toNat &&& 240) / 2 ^ 4 = v.toNat / 16 % 2 ^ 4 :=
    (Nat.and_div_two_pow ..).trans (Nat.and_two_pow_sub_one_eq_mod (v.toNat / 16) 4)
  have hlow : (v.toNat &&& 240) % 2 ^ 4 = 0 := (Nat.and_mod_two_pow ..).trans (Nat.and_zero _)
  rw [BitVec.toNat_and]
  change v.toNat &&& 240 = _
  omega

end Sys2Proof.Machine

namespace Sys2Proof.Claims

open Sys2Proof.Machine

/-! Two stores in a row. -/

/-- The second of two stores at different addresses leaves what the first one stored. -/
theorem storedTwo_writeByte (s : State) {first second : Word} (hne : first ≠ second) (v w : Byte) :
    StoredTwo s (writeByte second w (writeByte first v s)) first v second w := by
  obtain ⟨hother₁, hcells₁, hback₁⟩ := stored_writeByte s first v
  obtain ⟨hother₂, hcells₂, hback₂⟩ := stored_writeByte (writeByte first v s) second w
  have hstores : storesAt (writeByte first v s) second = storesAt s second := by
    rw [storesAt, storesAt, writeByte_params]
  have hreads : readsBack (writeByte first v s) second = readsBack s second := by
    simp only [readsBack, keepsByte, writeByte_params]
  refine ⟨fun x hx => ?_, fun hwf x => ?_, fun hwf hr => ?_, fun hwf hr => ?_⟩
  · obtain ⟨hx₁, hx₂⟩ : x ≠ first ∧ x ≠ second := by simpa using hx
    rw [hother₂ x (by simpa using hx₂), hother₁ x (by simpa using hx₁)]
  · have hnat : first.toNat ≠ second.toNat := fun h => hne (BitVec.eq_of_toNat_eq h)
    rw [hcells₂ (wf_writeByte hwf), hcells₁ hwf, hstores]
    split
    · next h => rw [if_neg fun h' => hnat (h'.1.symm.trans h.1)]
    · rfl
  · rw [hother₂ first (by simpa using hne), hback₁ hwf hr]
  · exact hback₂ (wf_writeByte hwf) (hreads.trans hr)

/-- As `Stored.congr`, of two stores. -/
theorem StoredTwo.congr {s t u : State} {first second : Word} {v w : Byte} (h : StoredTwo s t first v second w)
    (hm : u.mem = t.mem) (hp : u.params = t.params) : StoredTwo s u first v second w := by
  obtain ⟨hother, hcells, hback₁, hback₂⟩ := h
  exact ⟨fun x hx => (readByte_congr hm hp x).trans (hother x hx), fun hwf x => by rw [hm, hcells hwf],
    fun hwf hr => (readByte_congr hm hp first).trans (hback₁ hwf hr),
    fun hwf hr => (readByte_congr hm hp second).trans (hback₂ hwf hr)⟩

/-! Push. -/

theorem pushed_ticks (s : State) (v : Word) : (pushed v s).ticks = s.ticks + 8 := by
  rw [pushed, setSp_ticks, writeByte_ticks, writeByte_ticks]

/-- `Push16` in the words of the statements (45_stack R220). -/
theorem pushed_spec (s : State) (v : Word) : Pushed s (pushed v s) v := by
  have hne : s.sp - 1#16 ≠ s.sp - 2#16 := by bv_omega
  refine ⟨rfl, ?_, ?_⟩
  · rw [← hiByte_eq_highByte, ← loByte_eq_lowByte]
    exact (storedTwo_writeByte s hne _ _).congr rfl rfl
  · rw [pushed, setSp_diag, writeByte_diag, writeByte_diag]

theorem changesOnly_pushed {s : State} (hgo : PushGoes s) (v : Word) :
    ChangesOnly [.sp, .memory, .diag, .ticks] s (pushed v s) := by
  obtain ⟨hhigh, hlow⟩ := hgo
  have hlow' : accessStops (writeByte (s.sp - 1#16) (hiByte v) s) (s.sp - 2#16) = false := by
    rw [accessStops_writeByte, hlow]
  exact (((changesOnly_writeByte hhigh _).append (changesOnly_writeByte hlow' _)).append (changesOnly_setSp _ _)).mono
    (by simp)

/-- Time that passes before a push does not change where its bytes go. -/
theorem PushGoes.internal {s : State} (h : PushGoes s) (n : Nat) : PushGoes (internal n s) := h

theorem pushed_of_internal {s t : State} {v : Word} {n : Nat} (h : Pushed (internal n s) t v) : Pushed s t v := h

/-- Every instruction that pushes `v` after one internal cycle and does nothing else. -/
theorem pushes_of_push16Then {i : Instr} {op : Byte} {v : State → Word} (hencode : encode i = [op])
    (hexec : ∀ s, exec i s = push16Then (v s) (internal 1 s) .next) : Pushes i [op] v := by
  intro s hgo
  have hgo' := hgo.internal 1
  refine ⟨pushed (v s) (internal 1 s), ⟨hencode, ?_, ?_⟩, pushed_of_internal (pushed_spec _ (v s)),
    ((changesOnly_internal s 1).append (changesOnly_pushed hgo' _)).mono (by simp)⟩
  · rw [hexec, push16Then_of_go (v s) hgo'.1 hgo'.2]
  · rw [pushed_ticks, internal_ticks, List.length_singleton]

/-! Pop. -/

theorem toNat_stackWord (s : State) : (stackWord s).toNat = topOfStack s := toNat_joinBytes _ _

theorem popped_ticks (s : State) : (popped s).ticks = s.ticks + 8 := by
  rw [popped, setSp_ticks, chargeRead_ticks, chargeRead_ticks]

/-- `Pop16` in the words of the statements (45_stack R221). -/
theorem popped_spec (s : State) : Popped s (popped s) :=
  ⟨rfl, readsZeroInGap s _, readsZeroInGap s _, by rw [popped, setSp_diag, chargeRead_diag, chargeRead_diag]⟩

/-- Whether a word has been popped is seen in SP and the log of the later state alone. -/
theorem Popped.congr {s t u : State} (h : Popped s t) (hsp : u.sp = t.sp) (hdiag : u.diag = t.diag) : Popped s u := by
  rw [Popped, hsp, hdiag]
  exact h

theorem changesOnly_popped {s : State} (hgo : PopGoes s) : ChangesOnly [.sp, .diag, .ticks] s (popped s) := by
  obtain ⟨hlow, hhigh⟩ := hgo
  have hhigh' : accessStops (chargeRead s.sp s) (s.sp + 1#16) = false := by rw [accessStops_chargeRead, hhigh]
  exact (((changesOnly_chargeRead hlow).append (changesOnly_chargeRead hhigh')).append (changesOnly_setSp _ _)).mono
    (by simp)

/-! The pairs. -/

theorem opcodeWith_pair (base place : Nat) (rr : StackPair) :
    opcodeWith base place rr.index = BitVec.ofNat 8 base + BitVec.ofNat 8 place * rp2Index rr := by
  have hindex : BitVec.ofNat 8 rr.index = rp2Index rr := by cases rr <;> rfl
  rw [opcodeWith_eq, hindex]

theorem valuePair_eq_toNat (s : State) (rr : StackPair) : valuePair s rr = (s.getPair rr).toNat := by
  cases rr with
  | bc | de | hl => exact (toNat_joinBytes _ _).symm

theorem ofNat_valuePair (s : State) (rr : StackPair) : BitVec.ofNat 16 (valuePair s rr) = s.getPair rr := by
  rw [valuePair_eq_toNat, BitVec.ofNat_toNat, BitVec.setWidth_eq]

theorem ofNat_af (s : State) : BitVec.ofNat 16 (s.a.toNat * 256 + s.f.toNat) = s.af := by
  rw [← toNat_joinBytes, BitVec.ofNat_toNat, BitVec.setWidth_eq, State.af]

theorem valuePair_setPair (s : State) (rr : StackPair) (v : Word) : valuePair (s.setPair rr v) rr = v.toNat := by
  rw [valuePair_eq_toNat, getPair_setPair]

theorem changesOnly_setPair (s : State) (rr : StackPair) (v : Word) :
    ChangesOnly (partsPair rr) s (s.setPair rr v) := by
  cases rr with
  | bc => exact changesOnly_setReg16 s .bc v
  | de => exact changesOnly_setReg16 s .de v
  | hl => exact changesOnly_setReg16 s .hl v

theorem changesOnly_setAf (s : State) (v : Word) : ChangesOnly [.reg .a, .flags] s (s.setAf v) := by
  intro p hp
  cases p with
  | flags => simp at hp
  | reg r => exact getReg8_setReg8_of_ne s (hiByte v) (by simpa using hp)
  | _ => simp [Part.same]

/-! The instructions. -/

/-- Settles O41: both push their pair after one internal cycle. -/
theorem pushWritesTwoBytes : Obligations.PushWritesTwoBytes :=
  ⟨fun rr => pushes_of_push16Then (by rw [encode, opcodeWith_pair]) fun s => by rw [ofNat_valuePair]; rfl,
    pushes_of_push16Then rfl fun s => by rw [ofNat_af]; rfl⟩

/-- Settles O42: both write the word that `Pop16` gives to their pair, and `POP AF` masks the half that goes to F. -/
theorem popReadsTwoBytes : Obligations.PopReadsTwoBytes := by
  refine ⟨fun s rr hgo => ?_, fun s hgo => ?_⟩
  · refine ⟨(popped s).setPair rr (stackWord s), ⟨by rw [encode, opcodeWith_pair], ?_, ?_⟩,
      (popped_spec s).congr (setPair_sp ..) (setPair_diag ..), ?_,
      (changesOnly_popped hgo).append (changesOnly_setPair _ rr _)⟩
    · rw [exec, execPopRr, pop16Then_of_go hgo.1 hgo.2]
    · rw [setPair_ticks, popped_ticks, List.length_singleton]
    · rw [valuePair_setPair, toNat_stackWord]
  · have hlow := (readByte s s.sp).isLt
    refine ⟨(popped s).setAf (stackWord s), ⟨rfl, ?_, ?_⟩, popped_spec s, ?_, ?_,
      ((changesOnly_popped hgo).append (changesOnly_setAf _ _)).mono (by simp)⟩
    · rw [exec, execPopAf, pop16Then_of_go hgo.1 hgo.2]
    · rw [setAf_ticks, popped_ticks, List.length_singleton]
    · rw [setAf_a, stackWord, hiByte_joinBytes, topOfStack]
      omega
    · rw [setAf_f, toNat_and_mask, stackWord, loByte_joinBytes, topOfStack]
      omega

end Sys2Proof.Claims
end

section
/-! The statements about jumps, calls and returns (46_control R230 to R247): one lemma for each shape of the statements,
which an instruction meets by what `exec` answers for it. -/

namespace Sys2Proof.Claims

open Sys2Proof.Machine

/-! Writing PC. -/

theorem changesOnly_setPc (s : State) (v : Word) : ChangesOnly [.pc] s (s.setPc v) := by
  intro p hp
  cases p with
  | pc => simp at hp
  | reg r => cases r <;> rfl
  | _ => simp [Part.same]

/-- Writing PC after a push leaves what was pushed. -/
theorem Pushed.setPc {s t : State} {v : Word} (h : Pushed s t v) (w : Word) : Pushed s (t.setPc w) v := h

/-- Time that passes before a pop does not change where its bytes come from. -/
theorem PopGoes.internal {s : State} (h : PopGoes s) (n : Nat) : PopGoes (internal n s) := h

theorem popped_of_internal {s t : State} {n : Nat} (h : Popped (internal n s) t) : Popped s t := h

/-! Conditions. -/

theorem flagBit_eq_toNat (s : State) (bit : Nat) : flagBit s bit = (s.f.getLsbD bit).toNat :=
  (Nat.toNat_testBit s.f.toNat bit).symm

/-- The model's condition is the one of the statements (46_control R230). -/
theorem cond_eq_holds (s : State) (cc : Cond) : s.cond cc = holds s cc := by
  cases cc with
  | nz | z => rw [State.cond, State.flagZ, holds, flagBit_eq_toNat]; cases s.f.getLsbD 7 <;> rfl
  | nc | c => rw [State.cond, State.flagC, holds, flagBit_eq_toNat]; cases s.f.getLsbD 4 <;> rfl

/-- A statement about a conditional instruction is one about each branch that the model takes. -/
theorem ite_holds_of_cond {s : State} {cc : Cond} {taken passed : Prop} (htaken : s.cond cc = true → taken)
    (hpassed : ¬s.cond cc = true → passed) : if holds s cc = true then taken else passed := by
  rw [cond_eq_holds] at htaken hpassed
  split
  · next h => exact htaken h
  · next h => exact hpassed h

theorem opcodeWith_cond (base place : Nat) (cc : Cond) :
    opcodeWith base place cc.index = BitVec.ofNat 8 base + BitVec.ofNat 8 place * ccIndex cc := by
  have hindex : BitVec.ofNat 8 cc.index = ccIndex cc := by cases cc <;> rfl
  rw [opcodeWith_eq, hindex]

theorem encode_jrCcE8 (cc : Cond) (n : Byte) : encode (.jrCcE8 cc n) = [0x20#8 + 8#8 * ccIndex cc, n] := by
  rw [encode, opcodeWith_cond]

theorem encode_jpCcA16 (cc : Cond) (addr : Word) :
    encode (.jpCcA16 cc addr) = [0xC2#8 + 8#8 * ccIndex cc, lowByte addr, highByte addr] := by
  rw [encode, opcodeWith_cond, withWord_eq]

theorem encode_callCcA16 (cc : Cond) (addr : Word) :
    encode (.callCcA16 cc addr) = [0xC4#8 + 8#8 * ccIndex cc, lowByte addr, highByte addr] := by
  rw [encode, opcodeWith_cond, withWord_eq]

theorem encode_retCc (cc : Cond) : encode (.retCc cc) = [0xC0#8 + 8#8 * ccIndex cc] := by
  rw [encode, opcodeWith_cond]

/-! The shapes: what an instruction that answers in this way does. -/

section
variable {i : Instr} {bytes : List Byte} {cycles n : Nat} {s : State}

theorem passesFrom_of_internal (hencode : encode i = bytes) (hexec : exec i s = .next (internal n s))
    (hcycles : 4 * n + 4 * bytes.length = cycles) : PassesFrom i bytes cycles s :=
  ⟨internal n s, ⟨hencode, hexec, by rw [internal_ticks]; omega⟩, changesOnly_internal s n⟩

theorem jumpsFrom_of_setPc {v : Word} {target : Nat} (hencode : encode i = bytes)
    (hexec : exec i s = .next (internal n (s.setPc v))) (hcycles : 4 * n + 4 * bytes.length = cycles)
    (htarget : v.toNat = target) : JumpsFrom i bytes cycles target s :=
  ⟨internal n (s.setPc v), ⟨hencode, hexec, by rw [internal_ticks, setPc_ticks]; omega⟩, htarget,
    (changesOnly_setPc s v).append (changesOnly_internal _ n)⟩

/-- A call takes its fetch, one internal cycle and the two writes (46_control R236). -/
theorem callsFrom_of_callTo {target : Word} (hencode : encode i = bytes) (hexec : exec i s = callTo target s)
    (hcycles : 12 + 4 * bytes.length = cycles) : CallsFrom i bytes cycles target s := by
  intro hgo
  have hgo' := hgo.internal 1
  refine ⟨(pushed s.pc (internal 1 s)).setPc target, ⟨hencode, ?_, ?_⟩,
    (pushed_of_internal (pushed_spec _ s.pc)).setPc target, rfl,
    (((changesOnly_internal s 1).append (changesOnly_pushed hgo' _)).append (changesOnly_setPc _ _)).mono (by simp)⟩
  · rw [hexec, callTo, push16Then_of_go s.pc hgo'.1 hgo'.2]
  · rw [setPc_ticks, pushed_ticks, internal_ticks]
    omega

/-- A return takes its fetch, the cycles before it, the two reads and one internal cycle (46_control R238, R239). -/
theorem returnsFrom_of_returnWith (hencode : encode i = bytes)
    (hexec : exec i s = returnWith (fun t => t) (internal n s)) (hcycles : 4 * n + 12 + 4 * bytes.length = cycles) :
    ReturnsFrom i bytes cycles [] s := by
  intro hgo
  have hgo' := hgo.internal n
  refine ⟨internal 1 ((popped (internal n s)).setPc (stackWord s)), ⟨hencode, ?_, ?_⟩,
    (popped_of_internal (popped_spec _)).congr rfl rfl, toNat_stackWord s, by simp,
    ((((changesOnly_internal s n).append (changesOnly_popped hgo')).append (changesOnly_setPc _ _)).append
      (changesOnly_internal _ 1)).mono (by simp)⟩
  · rw [hexec, returnWith, pop16Then_of_go hgo'.1 hgo'.2]
    rfl
  · rw [internal_ticks, setPc_ticks, popped_ticks, internal_ticks]
    omega

end

/-! The instructions. -/

/-- Settles O44: each jump writes its target to PC and passes one internal cycle, `JP HL` none. -/
theorem jumpsSetPc : Obligations.JumpsSetPc := by
  refine ⟨fun s n => ?_, fun s cc n => ite_holds_of_cond (fun h => ?_) fun h => ?_, fun s addr => ?_,
    fun s cc addr => ite_holds_of_cond (fun h => ?_) fun h => ?_, fun s => ?_⟩
  · exact jumpsFrom_of_setPc (n := 1) rfl rfl rfl (toNat_add_sext16 s.pc n)
  · exact jumpsFrom_of_setPc (n := 1) (encode_jrCcE8 cc n) (if_pos h) rfl (toNat_add_sext16 s.pc n)
  · exact passesFrom_of_internal (n := 0) (encode_jrCcE8 cc n) (if_neg h) rfl
  · exact jumpsFrom_of_setPc (n := 1) (withWord_eq _ addr) rfl rfl rfl
  · exact jumpsFrom_of_setPc (n := 1) (encode_jpCcA16 cc addr) (if_pos h) rfl rfl
  · exact passesFrom_of_internal (n := 0) (encode_jpCcA16 cc addr) (if_neg h) rfl
  · exact jumpsFrom_of_setPc (n := 0) rfl rfl rfl (value16_eq_toNat s .hl).symm

/-- The bits of a vector and of 0xC7 are apart (46_control R247). -/
theorem encode_rstVec {k : Nat} (hk : k < 8) :
    encode (.rstVec (BitVec.ofNat 8 (8 * k))) = [BitVec.ofNat 8 (0xC7 + 8 * k)] := by
  revert k
  decide

/-- `RST` calls the vector that its byte names (46_control R247). -/
theorem exec_rstVec {k : Nat} (hk : k < 8) (s : State) :
    exec (.rstVec (BitVec.ofNat 8 (8 * k))) s = callTo (BitVec.ofNat 16 (8 * k)) s := by
  have hvec : (BitVec.ofNat 8 (8 * k)).zeroExtend 16 = BitVec.ofNat 16 (8 * k) := by bv_omega
  rw [exec, execRstVec, hvec]

/-- Settles O45: each call taken is `callTo` its target. -/
theorem callsPushReturnAddress : Obligations.CallsPushReturnAddress := by
  refine ⟨fun s addr => ?_, fun s cc addr => ite_holds_of_cond (fun h => ?_) fun h => ?_, fun s k hk => ?_⟩
  · exact callsFrom_of_callTo (withWord_eq _ addr) rfl rfl
  · exact callsFrom_of_callTo (encode_callCcA16 cc addr) (if_pos h) rfl
  · exact passesFrom_of_internal (n := 0) (encode_callCcA16 cc addr) (if_neg h) rfl
  · exact callsFrom_of_callTo (encode_rstVec hk) (exec_rstVec hk s) rfl

/-- Settles O46: `RET cc` passes one internal cycle before it looks at its condition, `RET` none. -/
theorem returnsPopPc : Obligations.ReturnsPopPc := by
  refine ⟨fun s => ?_, fun s cc => ite_holds_of_cond (fun h => ?_) fun h => ?_⟩
  · exact returnsFrom_of_returnWith (n := 0) rfl rfl rfl
  · exact returnsFrom_of_returnWith (n := 1) (encode_retCc cc) (if_pos h) rfl
  · exact passesFrom_of_internal (n := 1) (encode_retCc cc) (if_neg h) rfl

end Sys2Proof.Claims
end

section
/-! The statement about PREFIX CB (47_misc R258), from `runCb_eq_exec`: one byte is fetched, and every CB instruction
answers a next state. -/

namespace Sys2Proof.Machine

variable (s : State)

/-! The CB instructions answer a next state. -/

theorem answers_shiftHl (f : Byte → Bool → ShiftResult) : Answers (fun _ => True) (shiftHl f s) :=
  answers_readThen (fun _ => trivial) fun _ => answers_writeThen (fun _ => trivial) fun _ => answers_next trivial

theorem answers_rewriteHl (f : Byte → Byte) : Answers (fun _ => True) (rewriteHl f s) :=
  answers_readThen (fun _ => trivial) fun _ => answers_writeThen (fun _ => trivial) fun _ => answers_next trivial

theorem answers_execBitHl (bit : Nat) : Answers (fun _ => True) (execBitHl bit s) :=
  answers_readThen (fun _ => trivial) fun _ => answers_next trivial

theorem answers_runCbRot (y : Nat) (slot : Option Reg8) : Answers (fun _ => True) (runCbRot y slot s) := by
  unfold runCbRot
  cases slot with
  | some r => dsimp only; split <;> exact answers_next trivial
  | none => dsimp only; split <;> exact answers_shiftHl s _

theorem answers_runCb (sub : Byte) : Answers (fun _ => True) (runCb sub s) := by
  unfold runCb
  split
  · exact answers_runCbRot s _ _
  · exact answers_next trivial
  · exact answers_execBitHl s _
  · exact answers_next trivial
  · exact answers_rewriteHl s _
  · exact answers_next trivial
  · exact answers_rewriteHl s _

end Sys2Proof.Machine

namespace Sys2Proof.Claims

open Sys2Proof.Machine

/-- One byte fetched, in the words of the statements (00_scope R9, 20_memory R54). -/
theorem fetched_one {s : State} (hgo : accessStops s s.pc = false) :
    fetched s 1 = (chargeRead s.pc s).setPc (s.pc + 1#16) := by
  simp [fetched, fetchRecords, chargeRead_eq, State.setPc, hgo]

/-- Settles O54: where the fetch goes on, `PREFIX CB` is `runCb` of the byte at PC, which the CB table decodes. -/
theorem prefixRunsTheCbInstruction : Obligations.PrefixRunsTheCbInstruction := by
  intro s hgo
  obtain ⟨t, hrun, -⟩ := answers_runCb (fetched s 1) (readByte s s.pc)
  refine ⟨decodeCb (readByte s s.pc), t, rfl, ?_, ?_⟩
  · rw [← runCb_eq_exec, hrun]
  · rw [exec, execPrefixCb, fetch8Then_of_go hgo, ← fetched_one hgo, hrun]

end Sys2Proof.Claims
end

section
/-! The statements about the CB instructions on one bit (48_cb_prefix R287 to R292): BIT, RES and SET. -/

namespace Sys2Proof.Machine

/-! A byte under a mask and outside it. -/

section
variable (v mask : Byte)

theorem or_mask_and_mask : (v ||| mask) &&& mask = mask := by
  ext i hi
  cases hm : mask[i] <;> simp [hm]

theorem or_mask_and_not_mask : (v ||| mask) &&& ~~~mask = v &&& ~~~mask := by
  ext i hi
  cases hm : mask[i] <;> simp [hm]

/-- The two parts of a byte share no bit and make up the byte. -/
theorem toNat_and_not_add_toNat_and : (v &&& ~~~mask).toNat + (v &&& mask).toNat = v.toNat := by
  have hdisjoint : (v &&& ~~~mask) &&& (v &&& mask) = 0#8 := by
    ext i hi
    cases hm : mask[i] <;> simp [hm]
  have hunion : (v &&& ~~~mask) ||| (v &&& mask) = v := by
    ext i hi
    cases hm : mask[i] <;> simp [hm]
  rw [← BitVec.toNat_add_of_and_eq_zero hdisjoint, BitVec.add_eq_or_of_and_eq_zero _ _ hdisjoint, hunion]

end

/-! RES and SET in the arithmetic of the statement. -/

section
variable (v : Byte) {bit : Nat}

theorem toNat_one_shiftLeft (hbit : bit < 8) : (1#8 <<< bit).toNat = 2 ^ bit := BitVec.toNat_twoPow_of_lt hbit

/-- What a one-bit mask keeps, in the words of the statement. -/
theorem toNat_and_one_shiftLeft (hbit : bit < 8) :
    (v &&& 1#8 <<< bit).toNat = v.toNat / 2 ^ bit % 2 * 2 ^ bit := by
  rw [BitVec.toNat_and, toNat_one_shiftLeft hbit, Nat.and_two_pow, Nat.toNat_testBit]

/-- RES takes the bit away where it is set (48_cb_prefix R289). -/
theorem toNat_clearBit (hbit : bit < 8) :
    (clearBit bit v).toNat = v.toNat - v.toNat / 2 ^ bit % 2 * 2 ^ bit := by
  rw [← toNat_and_one_shiftLeft v hbit]
  exact Nat.eq_sub_of_add_eq (toNat_and_not_add_toNat_and v (1#8 <<< bit))

/-- SET agrees with RES outside the bit, and sets the bit. -/
theorem toNat_setBit_eq_toNat_clearBit_add (hbit : bit < 8) :
    (setBit bit v).toNat = (clearBit bit v).toNat + 2 ^ bit := by
  rw [← toNat_and_not_add_toNat_and (setBit bit v) (1#8 <<< bit), setBit, or_mask_and_mask, or_mask_and_not_mask,
    toNat_one_shiftLeft hbit, clearBit]

/-- SET adds the bit where it is clear (48_cb_prefix R291). -/
theorem toNat_setBit (hbit : bit < 8) :
    (setBit bit v).toNat = v.toNat + (1 - v.toNat / 2 ^ bit % 2) * 2 ^ bit := by
  have hle : v.toNat / 2 ^ bit % 2 * 2 ^ bit ≤ v.toNat := by
    rw [← toNat_and_one_shiftLeft v hbit, BitVec.toNat_and]
    exact Nat.and_le_left
  rw [toNat_setBit_eq_toNat_clearBit_add v hbit, toNat_clearBit v hbit]
  rcases Nat.mod_two_eq_zero_or_one (v.toNat / 2 ^ bit) with h | h <;> rw [h] at hle ⊢ <;> omega

end

end Sys2Proof.Machine

namespace Sys2Proof.Claims

open Sys2Proof.Machine

/-! The bytes: a bit number is placed from bit 3 on (48_cb_prefix). -/

theorem opcodeWith_bit_reg8 (base bit : Nat) (r : Reg8) :
    opcodeWith (base + r.index) 8 bit = BitVec.ofNat 8 (base + 8 * bit) + slot r := by
  rw [opcodeWith, Nat.add_right_comm, BitVec.ofNat_add, ofNat_reg8Index]

/-! BIT. -/

/-- Z is the complement of the tested bit. -/
theorem bitFlags_z (bit : Nat) (v : Byte) (c : Bool) :
    (bitFlags bit v c).z = decide (v.toNat / 2 ^ bit % 2 = 0) := by
  rw [bitFlags, BitVec.getLsbD, ← Nat.toNat_testBit]
  cases v.toNat.testBit bit <;> rfl

/-- The flags of BIT in the words of the statement; the carry is the one of the state `s` before. -/
theorem hasFlags_bitFlags (s t : State) (bit : Nat) (v : Byte) :
    HasFlags (t.setFlags (bitFlags bit v s.flagC)) (decide (v.toNat / 2 ^ bit % 2 = 0)) false true
      (decide (carry s = 1)) := by
  rw [← bitFlags_z bit v s.flagC, decide_carry_eq_one]
  exact hasFlags_of_f (byte_and_mask _)

/-- Settles O57: both forms write the flags of the tested byte and nothing else, `BIT b,(HL)` after its one read. -/
theorem bitTestsOneBit : Obligations.BitTestsOneBit := by
  refine ⟨fun s bit r _ => ?_, fun s bit _ hgo => ?_⟩
  · exact ⟨_, ⟨by rw [encode, opcodeWith_bit_reg8], rfl, rfl⟩, hasFlags_bitFlags s s bit _, changesOnly_setFlags s _⟩
  · refine ⟨(chargeRead s.hl s).setFlags (bitFlags bit (readByte s s.hl) s.flagC), ⟨rfl, ?_, ?_⟩,
      hasFlags_bitFlags s _ bit _, readsZeroInGap s _, ?_,
      ((changesOnly_chargeRead hgo).append (changesOnly_setFlags _ _)).mono (by simp)⟩
    · rw [exec, execBitHl, readThen_of_go hgo, flagC_chargeRead]
    · rw [setFlags_ticks, chargeRead_ticks]
      rfl
    · rw [setFlags_diag, chargeRead_diag]

/-! RES and SET. -/

section
variable {reg : Reg8 → Instr} {hl : Instr} {regBytes : Reg8 → List Byte} {hlBytes : List Byte}
  {regCycles hlCycles : Nat} {result : Byte → Nat} {f : Byte → Byte}

theorem changesOnly_refl (s : State) : ChangesOnly [] s s := by
  intro p _
  cases p with
  | memory => exact ⟨rfl, fun _ => rfl⟩
  | _ => rfl

/-- The two forms of an operation that rewrites the byte with `f` and leaves the flags. -/
theorem rewriteForms_of_rewriteHl (hencode : (∀ r, encode (reg r) = regBytes r) ∧ encode hl = hlBytes)
    (hcycles : (∀ r, 4 * (regBytes r).length = regCycles) ∧ 4 * hlBytes.length + 8 = hlCycles)
    (hexec : (∀ s r, exec (reg r) s = .next (s.setReg8 r (f (s.getReg8 r)))) ∧ ∀ s, exec hl s = rewriteHl f s)
    (hresult : ∀ v, (f v).toNat = result v) :
    RewriteForms reg hl regBytes hlBytes regCycles hlCycles [] (fun _ v => result v) (fun _ _ _ => True) :=
  rewriteForms_of_finish (new := fun v _ => f v) (finish := fun _ _ t => t) hencode hcycles hexec
    (fun _ _ s => changesOnly_refl s) (List.nil_subset _) (fun _ v => hresult v)
    fun _ _ _ => trivial

end

/-- Settles O58: `RES` rewrites the byte with `clearBit` and `SET` with `setBit`. -/
theorem resAndSetChangeOneBit : Obligations.ResAndSetChangeOneBit := by
  intro bit hbit
  constructor
  · exact rewriteForms_of_rewriteHl (f := clearBit bit) ⟨fun r => by rw [encode, opcodeWith_bit_reg8], rfl⟩
      ⟨fun _ => rfl, rfl⟩ ⟨fun _ _ => rfl, fun _ => rfl⟩ fun v => toNat_clearBit v hbit
  · exact rewriteForms_of_rewriteHl (f := setBit bit) ⟨fun r => by rw [encode, opcodeWith_bit_reg8], rfl⟩
      ⟨fun _ => rfl, rfl⟩ ⟨fun _ _ => rfl, fun _ => rfl⟩ fun v => toNat_setBit v hbit

end Sys2Proof.Claims
end

section
/-! The statements about encoding (30_encoding R90 to R107): the round trip in both directions, the length and the
illegal rows by the opcode byte, and the CB table by its fields. -/

namespace Sys2Proof.Claims

open Sys2Proof.Machine

/-! Fields of a byte (30_encoding R91). -/

/-- `base` holds the quadrant and `z` the low field of a byte whose field `y` is placed from bit 3 on. -/
theorem fields_opcodeWith {base x y z : Nat} (hbase : base = x * 64) (hx : x < 4) (hy : y < 8) (hz : z < 8) :
    fieldX (opcodeWith (base + z) 8 y) = x ∧ fieldY (opcodeWith (base + z) 8 y) = y ∧
      fieldZ (opcodeWith (base + z) 8 y) = z := by
  simp only [fieldX, fieldY, fieldZ, opcodeWith, BitVec.toNat_ofNat]
  omega

theorem regOfIndex_index (r : Reg8) : regOfIndex r.index = some r := by cases r <;> rfl

theorem reg8Index_lt (r : Reg8) : r.index < 8 := by cases r <;> decide

/-! Decoding what was encoded. -/

section
variable {bit : Nat} (rest : List Byte)

/-- The CB bytes of a bit instruction on a register give back its bit and its register (30_encoding R101). -/
theorem decodeCb_bit (hbit : bit < 8) (r : Reg8) :
    decodeCb (opcodeWith (0x40 + r.index) 8 bit) = .bitR bit r ∧
      decodeCb (opcodeWith (0x80 + r.index) 8 bit) = .resR bit r ∧
      decodeCb (opcodeWith (0xC0 + r.index) 8 bit) = .setR bit r := by
  have hr := reg8Index_lt r
  refine ⟨?_, ?_, ?_⟩
  · obtain ⟨hx, hy, hz⟩ := fields_opcodeWith (base := 0x40) (x := 1) rfl (by decide) hbit hr
    rw [decodeCb, hx, hy, hz, regOfIndex_index]
    rfl
  · obtain ⟨hx, hy, hz⟩ := fields_opcodeWith (base := 0x80) (x := 2) rfl (by decide) hbit hr
    rw [decodeCb, hx, hy, hz, regOfIndex_index]
    rfl
  · obtain ⟨hx, hy, hz⟩ := fields_opcodeWith (base := 0xC0) (x := 3) rfl (by decide) hbit hr
    rw [decodeCb, hx, hy, hz, regOfIndex_index]
    rfl

/-- As `decodeCb_bit`, of the byte at HL: slot 6. -/
theorem decodeCb_bitHl (hbit : bit < 8) :
    decodeCb (opcodeWith 0x46 8 bit) = .bitHl bit ∧ decodeCb (opcodeWith 0x86 8 bit) = .resHl bit ∧
      decodeCb (opcodeWith 0xC6 8 bit) = .setHl bit := by
  revert bit
  decide

/-- Quadrant 1 has one-byte instructions only. -/
theorem operandCount_of_quadrant1 : ∀ op : Byte, fieldX op = 1 → op ≠ prefixByte ∧ operandCount op = 0 := by
  decide

theorem decode_of_operandCount_zero {op : Byte} (hne : op ≠ prefixByte) (hcount : operandCount op = 0) :
    decode (op :: rest) = .instr (decodePrimary op 0 0) rest := by
  simp [decode, hne, hcount]

theorem decode_encode_ldRR (r r' : Reg8) : decode (encode (.ldRR r r') ++ rest) = .instr (.ldRR r r') rest := by
  obtain ⟨hx, hy, hz⟩ :=
    fields_opcodeWith (base := 0x40) (x := 1) rfl (by decide) (reg8Index_lt r) (reg8Index_lt r')
  obtain ⟨hne, hcount⟩ := operandCount_of_quadrant1 _ hx
  rw [encode, List.singleton_append, decode_of_operandCount_zero rest hne hcount, decodePrimary, hx, hy, hz, decodeX1,
    regOfIndex_index, regOfIndex_index]
  rfl

/-- The vector is the byte without the bits of 0xC7 (46_control R247). -/
theorem decodePrimary_rst : ∀ vec : Byte, isRstVector vec = true →
    0xC7#8 ||| vec ≠ prefixByte ∧ operandCount (0xC7#8 ||| vec) = 0 ∧
      decodePrimary (0xC7#8 ||| vec) 0 0 = .rstVec vec := by decide

theorem decode_encode_rstVec {vec : Byte} (hvec : isRstVector vec = true) :
    decode (encode (.rstVec vec) ++ rest) = .instr (.rstVec vec) rest := by
  obtain ⟨hne, hcount, hdecode⟩ := decodePrimary_rst vec hvec
  rw [encode, List.singleton_append, decode_of_operandCount_zero rest hne hcount, hdecode]

/-- A 16-bit operand comes back from its two bytes, the low one first (30_encoding R90). -/
theorem decode_withWord {op : Byte} {i : Word → Instr} {rest : List Byte}
    (h : ∀ b1 b2, decode (op :: b1 :: b2 :: rest) = .instr (i (joinBytes b2 b1)) rest) (v : Word) :
    decode (withWord op v ++ rest) = .instr (i v) rest := by
  rw [withWord, ← joinBytes_hiByte_loByte v, hiByte_joinBytes, loByte_joinBytes]
  exact h _ _

/-- Each constructor by the shape of its encoding: constant bytes, one register or condition field, a 16-bit operand,
and the three that place a number of their own. -/
theorem decode_encode {i : Instr} (hwf : i.wf = true) (hne : i ≠ .prefixCb) :
    decode (encode i ++ rest) = .instr i rest := by
  cases i with
  | prefixCb => exact absurd rfl hne
  | bitR bit r => exact congrArg (Decoded.instr · rest) (decodeCb_bit (of_decide_eq_true hwf) r).1
  | resR bit r => exact congrArg (Decoded.instr · rest) (decodeCb_bit (of_decide_eq_true hwf) r).2.1
  | setR bit r => exact congrArg (Decoded.instr · rest) (decodeCb_bit (of_decide_eq_true hwf) r).2.2
  | bitHl bit => exact congrArg (Decoded.instr · rest) (decodeCb_bitHl (of_decide_eq_true hwf)).1
  | resHl bit => exact congrArg (Decoded.instr · rest) (decodeCb_bitHl (of_decide_eq_true hwf)).2.1
  | setHl bit => exact congrArg (Decoded.instr · rest) (decodeCb_bitHl (of_decide_eq_true hwf)).2.2
  | ldRR r r' => exact decode_encode_ldRR rest r r'
  | rstVec vec => exact decode_encode_rstVec rest hwf
  | ldAA16 addr | ldA16A addr | ldA16Sp addr | jpA16 addr | callA16 addr =>
    exact decode_withWord (fun _ _ => rfl) addr
  | ldRrN16 rr n => cases rr <;> exact decode_withWord (fun _ _ => rfl) n
  | jpCcA16 cc addr | callCcA16 cc addr => cases cc <;> exact decode_withWord (fun _ _ => rfl) addr
  | jrCcE8 cc _ | retCc cc => cases cc <;> rfl
  | addHlRr rr | incRr rr | decRr rr | pushRr rr | popRr rr => cases rr <;> rfl
  | rlcR r | rrcR r | rlR r | rrR r | slaR r | sraR r | swapR r | srlR r | ldRN8 r _ | ldRHl r | ldHlR r
  | addAR r | adcAR r | subAR r | sbcAR r | andAR r | xorAR r | orAR r | cpAR r | incR r | decR r => cases r <;> rfl
  | _ => rfl

end

/-- Settles O1, from `decode_encode`. -/
theorem decodeOfEncodeGivesInstruction : Obligations.DecodeOfEncodeGivesInstruction :=
  ⟨fun _ rest hwf hne => decode_encode rest hwf hne, rfl⟩

/-! Encoding what was decoded. -/

/-- The bytes are the encoding of the instruction, which is well formed. -/
def Encodes (i : Instr) (bytes : List Byte) : Prop := i.wf = true ∧ encode i = bytes

theorem encodes_decodeCb : ∀ sub : Byte, Encodes (decodeCb sub) [prefixByte, sub] := by
  unfold Encodes
  decide

theorem encodes_of_operandCount_zero : ∀ op : Byte, op ≠ prefixByte → operandCount op = 0 →
    Encodes (decodePrimary op 0 0) [op] := by
  unfold Encodes
  decide

theorem mem_of_operandCount_one : ∀ op : Byte, operandCount op = 1 → op ∈ opcodesOfLength2 := by decide

theorem mem_of_operandCount_two : ∀ op : Byte, operandCount op = 2 → op ∈ opcodesOfLength3 := by decide

theorem encodes_of_operandCount_one {op : Byte} (hcount : operandCount op = 1) (b1 : Byte) :
    Encodes (decodePrimary op b1 0) [op, b1] := by
  have hmem := mem_of_operandCount_one op hcount
  clear hcount
  fin_cases hmem <;> exact ⟨rfl, rfl⟩

/-- A 16-bit operand is joined from its bytes, and encoded as its halves. -/
theorem encodes_of_operandCount_two {op : Byte} (hcount : operandCount op = 2) (b1 b2 : Byte) :
    Encodes (decodePrimary op b1 b2) [op, b1, b2] := by
  have hword : withWord op (joinBytes b2 b1) = [op, b1, b2] := by rw [withWord, loByte_joinBytes, hiByte_joinBytes]
  have hmem := mem_of_operandCount_two op hcount
  clear hcount
  fin_cases hmem <;> exact ⟨rfl, hword⟩

/-- Settles O2: a decoding is of `prefixByte` alone, of a CB byte, or of an opcode with up to two operand bytes. -/
theorem encodeOfDecodeGivesBytes : Obligations.EncodeOfDecodeGivesBytes := by
  intro bytes rest i h
  have append_of_encodes {consumed : List Byte} (henc : Encodes i consumed) :
      i.wf = true ∧ encode i ++ rest = consumed ++ rest := ⟨henc.1, by rw [henc.2]⟩
  match bytes with
  | [] => cases h
  | op :: tail =>
    simp only [decode] at h
    split at h
    · next hop =>
      subst hop
      split at h <;> cases h
      · exact append_of_encodes ⟨rfl, rfl⟩
      · exact append_of_encodes (encodes_decodeCb _)
    · next hop =>
      split at h <;> cases h
      · next hcount => exact append_of_encodes (encodes_of_operandCount_zero op hop hcount)
      · next hcount => exact append_of_encodes (encodes_of_operandCount_one hcount _)
      · next hcount => exact append_of_encodes (encodes_of_operandCount_two hcount _ _)

/-! What three bytes begin with. -/

/-- The instruction that the opcode byte and the two bytes after it give (30_encoding R97, R101). -/
def firstInstr (op b1 b2 : Byte) : Instr :=
  if op = prefixByte then decodeCb b1
  else
    match operandCount op with
    | 0 => decodePrimary op 0 0
    | 1 => decodePrimary op b1 0
    | _ => decodePrimary op b1 b2

/-- The two tables of lengths agree (30_encoding R104). -/
theorem lengthOf_eq : ∀ op : Byte, lengthOf op = if op = prefixByte then 2 else operandCount op + 1 := by decide

theorem operandCount_le (op : Byte) : operandCount op ≤ 2 := by
  unfold operandCount
  split
  · exact le_rfl
  · split <;> decide

/-- Three bytes always decode, and the opcode byte says how many of them are consumed. -/
theorem decode_three (op b1 b2 : Byte) (rest : List Byte) :
    decode (op :: b1 :: b2 :: rest) =
      .instr (firstInstr op b1 b2) ((op :: b1 :: b2 :: rest).drop (lengthOf op)) := by
  rw [lengthOf_eq, decode, firstInstr]
  split
  · rfl
  · have hle := operandCount_le op
    match operandCount op, hle with
    | 0, _ => rfl
    | 1, _ => rfl
    | 2, _ => rfl

/-- The opcode byte is the first byte of the encoding, and fixes its length. -/
theorem encode_firstInstr (op b1 b2 : Byte) : encode (firstInstr op b1 b2) = [op, b1, b2].take (lengthOf op) := by
  have h := (encodeOfDecodeGivesBytes _ _ _ (decode_three op b1 b2 [])).2
  exact List.append_cancel_right (h.trans (List.take_append_drop (lengthOf op) _).symm)

theorem lengthOf_le (op : Byte) : 1 ≤ lengthOf op ∧ lengthOf op ≤ 3 := by
  have hle := operandCount_le op
  rw [lengthOf_eq]
  split <;> omega

theorem length_encode_firstInstr (op b1 b2 : Byte) : (encode (firstInstr op b1 b2)).length = lengthOf op := by
  rw [encode_firstInstr, List.length_take]
  exact Nat.min_eq_left (lengthOf_le op).2

/-- Settles O3, from `decode_three`. -/
theorem opcodeByteFixesLength : Obligations.OpcodeByteFixesLength :=
  fun op b1 b2 rest => ⟨firstInstr op b1 b2, decode_three op b1 b2 rest, length_encode_firstInstr op b1 b2⟩

theorem head?_encode_firstInstr (op b1 b2 : Byte) : (encode (firstInstr op b1 b2)).head? = some op := by
  obtain ⟨n, hn⟩ := Nat.exists_eq_add_of_le' (lengthOf_le op).1
  rw [encode_firstInstr, hn, List.take_succ_cons, List.head?_cons]

/-- A row's byte gives the row, whatever comes after it, and is the whole encoding of the row (30_encoding R102). -/
theorem firstInstr_of_mem_illegalRows {row : Instr × Byte} (hrow : row ∈ illegalRows) (b1 b2 : Byte) :
    firstInstr row.2 b1 b2 = row.1 ∧ encode row.1 = [row.2] := by
  fin_cases hrow <;> exact ⟨rfl, rfl⟩

theorem mem_illegalRows_iff (op b1 b2 : Byte) : (firstInstr op b1 b2, op) ∈ illegalRows ↔ op ∈ illegalBytes := by
  refine ⟨fun hmem => List.mem_map_of_mem (f := Prod.snd) hmem, fun hmem => ?_⟩
  obtain ⟨row, hrow, rfl⟩ := List.mem_map.1 hmem
  rw [(firstInstr_of_mem_illegalRows hrow b1 b2).1]
  exact hrow

/-- Settles O4: the byte of an illegal row gives the row, and the row is encoded as its byte. -/
theorem exactlyElevenBytesAreIllegal : Obligations.ExactlyElevenBytesAreIllegal := by
  refine ⟨rfl, fun op b1 b2 i rest h => ?_⟩
  rw [decode_three] at h
  obtain ⟨rfl, -⟩ := Decoded.instr.inj h
  have hiff := mem_illegalRows_iff op b1 b2
  refine ⟨⟨fun hop => List.mem_map_of_mem (f := Prod.fst) (hiff.2 hop), fun hmem => ?_⟩, hiff⟩
  obtain ⟨row, hrow, hi⟩ := List.mem_map.1 hmem
  have hhead := head?_encode_firstInstr op b1 b2
  rw [← hi, (firstInstr_of_mem_illegalRows hrow b1 b2).2] at hhead
  obtain rfl : row.2 = op := Option.some.inj hhead
  exact List.mem_map_of_mem (f := Prod.snd) hrow

/-! Fixed words. -/

/-- Settles O5, from `decode_encode`: each word is the encoding of its instruction. -/
theorem cbTableByFields : Obligations.CbTableByFields := by
  have of_encode {i : Instr} {bytes : List Byte} (henc : encode i = bytes) (hwf : i.wf = true) (hne : i ≠ .prefixCb) :
      decode bytes = .instr i [] := by rw [← henc, ← decode_encode [] hwf hne, List.append_nil]
  have of_reg {i : Instr} {base : Nat} {r : Reg8} (henc : encode i = [0xCB#8, opcodeWith base 1 r.index])
      (hwf : i.wf = true) (hne : i ≠ .prefixCb) : decode [0xCB#8, BitVec.ofNat 8 base + slot r] = .instr i [] :=
    of_encode (by rw [henc, opcodeWith_reg8, BitVec.one_mul]) hwf hne
  have of_bit {i : Instr} {base bit : Nat} {r : Reg8} (henc : encode i = [0xCB#8, opcodeWith (base + r.index) 8 bit])
      (hwf : i.wf = true) (hne : i ≠ .prefixCb) :
      decode [0xCB#8, BitVec.ofNat 8 (base + 8 * bit) + slot r] = .instr i [] :=
    of_encode (by rw [henc, opcodeWith_bit_reg8]) hwf hne
  refine ⟨fun r => ?_, by decide, fun bit r hbit => ?_, by decide⟩
  · exact ⟨of_reg rfl rfl nofun, of_reg rfl rfl nofun, of_reg rfl rfl nofun, of_reg rfl rfl nofun,
      of_reg rfl rfl nofun, of_reg rfl rfl nofun, of_reg rfl rfl nofun, of_reg rfl rfl nofun⟩
  · have hwf := decide_eq_true hbit
    exact ⟨of_bit rfl hwf nofun, of_bit rfl hwf nofun, of_bit rfl hwf nofun⟩

/-- Settles O6: each word by evaluation of the decoder. -/
theorem documentBytesDecode : Obligations.DocumentBytesDecode := by
  unfold Obligations.DocumentBytesDecode
  decide

end Sys2Proof.Claims
end

section
/-! The step (30_encoding R99): the state after some bytes of an instruction have been fetched, fetching as a whole, and
everything a step can do. -/

namespace Sys2Proof.Claims

open Sys2Proof.Machine

/-! An access that stops the step, in the words of the statements (20_memory R54). -/

section
variable {s : State} {addr : Word}

theorem chargeRead_of_stop (h : accessStops s addr = true) : chargeRead addr s = stoppedAt s addr .read := by
  simp [chargeRead_eq, stoppedAt, accessRecord, legal_of_stop h, h]

/-- An illegal region stores nothing (20_memory R54). -/
theorem writeByte_mem_of_illegal (h : (regionOf addr).legal = false) (v : Byte) :
    (writeByte addr v s).mem = s.mem := by
  cases hr : regionOf addr with
  | cartridge | wram | io | hram | ie => simp [hr, Region.legal] at h
  | vram | externalRam | echoRam | oam | unusable => simp [writeByte, hr]

theorem writeByte_of_stop (h : accessStops s addr = true) (v : Byte) :
    writeByte addr v s = stoppedAt s addr .write := by
  rw [writeByte_eq, writeByte_mem_of_illegal (legal_of_stop h)]
  simp [stoppedAt, accessRecord, legal_of_stop h, h]

end

/-! Fetching byte after byte. -/

section
variable {s : State} {n : Nat}

theorem fetched_zero (s : State) : fetched s 0 = s := by simp [fetched, fetchRecords]

@[simp] theorem readByte_fetched (s : State) (n : Nat) (addr : Word) : readByte (fetched s n) addr = readByte s addr :=
  rfl

@[simp] theorem accessStops_fetched (s : State) (n : Nat) (addr : Word) :
    accessStops (fetched s n) addr = accessStops s addr := rfl

theorem fetched_succ (hgo : accessStops s (s.pc + BitVec.ofNat 16 n) = false) :
    fetched s (n + 1) =
      (chargeRead (s.pc + BitVec.ofNat 16 n) (fetched s n)).setPc (s.pc + BitVec.ofNat 16 n + 1#16) := by
  rw [chargeRead_eq, accessStops_fetched, hgo]
  simp [fetched, fetchRecords, State.setPc, List.range_succ, BitVec.ofNat_add, BitVec.add_assoc, Nat.mul_add,
    Nat.add_assoc]

/-- The fetch of the byte after `n` others. -/
theorem fetch8Then_fetched_of_go (hgo : accessStops s (s.pc + BitVec.ofNat 16 n) = false)
    (k : Byte → State → Result) :
    fetch8Then (fetched s n) k = k (readByte s (s.pc + BitVec.ofNat 16 n)) (fetched s (n + 1)) := by
  rw [fetched_succ hgo]
  exact fetch8Then_of_go hgo k

theorem fetch8Then_fetched_of_stop (hstop : accessStops s (s.pc + BitVec.ofNat 16 n) = true)
    (k : Byte → State → Result) :
    fetch8Then (fetched s n) k = .next (stoppedAt (fetched s n) (s.pc + BitVec.ofNat 16 n) .read) := by
  rw [← chargeRead_of_stop (s := fetched s n) hstop]
  exact fetch8Then_of_stop hstop k

end

/-! The fetch of an instruction. -/

/-- What `fetchThen` does after the opcode byte. -/
def fetchRestThen (op : Byte) (t : State) (k : Instr → State → Result) : Result :=
  if op = prefixByte then fetch8Then t fun sub u => k (decodeCb sub) u
  else
    match operandCount op with
    | 0 => k (decodePrimary op 0 0) t
    | 1 => fetch8Then t fun b1 u => k (decodePrimary op b1 0) u
    | _ => fetch8Then t fun b1 u => fetch8Then u fun b2 w => k (decodePrimary op b1 b2) w

section
variable {op : Byte} (t : State) (k : Instr → State → Result)

theorem fetchThen_eq (s : State) : fetchThen s k = fetch8Then s fun op t => fetchRestThen op t k := rfl

theorem fetchRestThen_of_length_one (h : lengthOf op = 1) (b1 b2 : Byte) :
    fetchRestThen op t k = k (firstInstr op b1 b2) t := by
  rw [lengthOf_eq] at h
  split at h
  · cases h
  · next hop => simp only [fetchRestThen, firstInstr, if_neg hop, Nat.succ.inj h]

theorem fetchRestThen_of_length_two (h : lengthOf op = 2) (b2 : Byte) :
    fetchRestThen op t k = fetch8Then t fun b1 u => k (firstInstr op b1 b2) u := by
  rw [lengthOf_eq] at h
  split at h
  · next hop => simp only [fetchRestThen, firstInstr, if_pos hop]
  · next hop => simp only [fetchRestThen, firstInstr, if_neg hop, Nat.succ.inj h]

theorem fetchRestThen_of_length_three (h : lengthOf op = 3) :
    fetchRestThen op t k = fetch8Then t fun b1 u => fetch8Then u fun b2 w => k (firstInstr op b1 b2) w := by
  rw [lengthOf_eq] at h
  split at h
  · cases h
  · next hop => simp only [fetchRestThen, firstInstr, if_neg hop, Nat.succ.inj h]

end

/-- The opcode byte of the next instruction. -/
def opcodeAt (s : State) : Byte := readByte s s.pc

/-- The instruction at PC. -/
def instrAt (s : State) : Instr := firstInstr (opcodeAt s) (readByte s (s.pc + 1#16)) (readByte s (s.pc + 2#16))

/-- The first `n` bytes at PC can be fetched. -/
def FetchGoes (s : State) (n : Nat) : Prop := ∀ j : Nat, j < n → accessStops s (s.pc + BitVec.ofNat 16 j) = false

theorem decode_codeBytes (s : State) :
    decode (codeBytes s) = .instr (instrAt s) ((codeBytes s).drop (lengthOf (opcodeAt s))) :=
  decode_three ..

theorem length_encode_instrAt (s : State) : (encode (instrAt s)).length = lengthOf (opcodeAt s) :=
  length_encode_firstInstr ..

section
variable {s : State} (k : Instr → State → Result)

theorem lengthOf_cases (op : Byte) : lengthOf op = 1 ∨ lengthOf op = 2 ∨ lengthOf op = 3 := by
  have := lengthOf_le op
  omega

theorem fetchThen_of_go_first (hgo : accessStops s (s.pc + BitVec.ofNat 16 0) = false) :
    fetchThen s k = fetchRestThen (opcodeAt s) (fetched s 1) k := by
  rw [fetchThen_eq, ← fetched_zero s, fetch8Then_fetched_of_go hgo, fetched_zero, opcodeAt, BitVec.add_zero]

/-- Where every byte of the instruction can be fetched, the rest of the step gets it and the state past its bytes. -/
theorem fetchThen_of_go (hgo : FetchGoes s (lengthOf (opcodeAt s))) :
    fetchThen s k = k (instrAt s) (fetched s (lengthOf (opcodeAt s))) := by
  rcases lengthOf_cases (opcodeAt s) with h | h | h <;> rw [h] at hgo ⊢ <;>
    rw [fetchThen_of_go_first k (hgo 0 (by decide))]
  · rw [fetchRestThen_of_length_one _ k h]
    rfl
  · rw [fetchRestThen_of_length_two _ k h, fetch8Then_fetched_of_go (hgo 1 (by decide))]
    rfl
  · rw [fetchRestThen_of_length_three _ k h, fetch8Then_fetched_of_go (hgo 1 (by decide)),
      fetch8Then_fetched_of_go (hgo 2 (by decide))]
    rfl

/-- The first byte whose fetch stops ends the step (20_memory R54). -/
theorem fetchThen_of_stop {n : Nat} (hn : n < lengthOf (opcodeAt s)) (hgo : FetchGoes s n)
    (hstop : accessStops s (s.pc + BitVec.ofNat 16 n) = true) :
    fetchThen s k = .next (stoppedAt (fetched s n) (s.pc + BitVec.ofNat 16 n) .read) := by
  match n with
  | 0 =>
    have h := fetch8Then_fetched_of_stop hstop fun op t => fetchRestThen op t k
    rwa [fetched_zero] at h ⊢
  | 1 =>
    rw [fetchThen_of_go_first k (hgo 0 (by decide))]
    rcases lengthOf_cases (opcodeAt s) with h | h | h
    · omega
    · rw [fetchRestThen_of_length_two _ k h 0, fetch8Then_fetched_of_stop hstop]
    · rw [fetchRestThen_of_length_three _ k h, fetch8Then_fetched_of_stop hstop]
  | 2 =>
    rcases lengthOf_cases (opcodeAt s) with h | h | h
    · omega
    · omega
    · rw [fetchThen_of_go_first k (hgo 0 (by decide)), fetchRestThen_of_length_three _ k h,
        fetch8Then_fetched_of_go (hgo 1 (by decide)), fetch8Then_fetched_of_stop hstop]
  | n + 3 =>
    have := lengthOf_le (opcodeAt s)
    omega

/-- Fetching either goes on to the end or stops at a first byte. -/
theorem fetchGoes_or_stops (s : State) (n : Nat) : FetchGoes s n ∨
    ∃ j, j < n ∧ FetchGoes s j ∧ accessStops s (s.pc + BitVec.ofNat 16 j) = true := by
  induction n with
  | zero => exact .inl fun j hj => absurd hj (Nat.not_lt_zero j)
  | succ n ih =>
    rcases ih with hgo | ⟨j, hj, hstop⟩
    · cases h : accessStops s (s.pc + BitVec.ofNat 16 n) with
      | false => exact .inl fun j hj => (Nat.lt_succ_iff_lt_or_eq.1 hj).elim (hgo j) fun he => he ▸ h
      | true => exact .inr ⟨n, Nat.lt_succ_self n, hgo, h⟩
    · exact .inr ⟨j, Nat.lt_succ_of_lt hj, hstop⟩

end

/-! The step. -/

theorem finishStep_eq_withEiDelay (s t : State) : finishStep s.imePending t = withEiDelay s t := by
  by_cases h : s.imePending = true ∧ t.imePending = true ∧ t.fatal = false
  · rw [withEiDelay, if_pos h, finishStep, if_pos (by simp [h])]
    rfl
  · rw [withEiDelay, if_neg h, finishStep, if_neg (by simpa [and_assoc] using h)]

/-- The end of a step whose instruction answered `r`. -/
def endStep (s : State) (r : Result) : Result :=
  match r with
  | .next t => .next (withEiDelay s t)
  | .fault r => .fault r
  | .refused r => .refused r

theorem step_of_halted {s : State} (hfatal : s.fatal = false) (hhalted : s.halted = true) :
    step s = .next (idleStep s) := by
  rw [step, if_neg (by simp [hfatal]), if_pos hhalted]

theorem step_of_running {s : State} (hfatal : s.fatal = false) (hhalted : s.halted = false) :
    step s = endStep s (fetchThen s exec) := by
  rw [step, if_neg (by simp [hfatal]), if_neg (by simp [hhalted])]
  cases fetchThen s exec with
  | next t => exact congrArg _ (finishStep_eq_withEiDelay s t)
  | fault r => rfl
  | refused r => rfl

/-- An instruction that answers a next state. -/
theorem exists_of_endStep {s t : State} {r : Result} (h : endStep s r = .next t) :
    ∃ u, r = .next u ∧ t = withEiDelay s u := by
  cases r with
  | next u => exact ⟨u, rfl, (Host.Outcome.next.inj h).symm⟩
  | fault r => cases h
  | refused r => cases h

/-- Settles O7: the decoded instruction is `instrAt`, and `fetchThen` hands it over with its bytes fetched. -/
theorem stepRunsDecodedInstruction : Obligations.StepRunsDecodedInstruction := by
  refine ⟨fun s h => ?_, fun s hf hh => ?_, fun s i rest hf hh hi hgo => ?_⟩
  · rw [step, if_pos h]
  · exact step_of_halted hf hh
  · rw [decode_codeBytes] at hi
    obtain ⟨rfl, -⟩ := Decoded.instr.inj hi
    rw [length_encode_instrAt] at hgo ⊢
    rw [step_of_running hf hh, fetchThen_of_go exec hgo]
    rfl

theorem withEiDelay_of_fatal {s t : State} (h : t.fatal = true) : withEiDelay s t = t :=
  if_neg fun hd => by simp [h] at hd

/-- A fetch that stops ends the step at once. -/
theorem step_of_fetch_stop {s : State} {n : Nat} (hfatal : s.fatal = false) (hhalted : s.halted = false)
    (hn : n < lengthOf (opcodeAt s)) (hgo : FetchGoes s n)
    (hstop : accessStops s (s.pc + BitVec.ofNat 16 n) = true) :
    step s = .next (stoppedAt (fetched s n) (s.pc + BitVec.ofNat 16 n) .read) := by
  rw [step_of_running hfatal hhalted, fetchThen_of_stop exec hn hgo hstop]
  exact congrArg _ (withEiDelay_of_fatal rfl)

/-- Settles O8: the first byte that stops is an opcode, operand or second byte; an opcode byte read as 0x00 is NOP. -/
theorem fetchFromIllegalRegion : Obligations.FetchFromIllegalRegion := by
  refine ⟨fun s hf hh hgap => ⟨fun hstrict => ?_, fun hlenient hpend => ?_⟩, fun s k hf hh hk hgo hstop => ?_,
    fun s hstop => ?_⟩
  · have hstop : accessStops s (s.pc + BitVec.ofNat 16 0) = true := by simp [accessStops, hstrict, hgap]
    have hgo : FetchGoes s 0 := fun j hj => absurd hj (Nat.not_lt_zero j)
    rw [step_of_fetch_stop hf hh (lengthOf_le _).1 hgo hstop, fetched_zero, BitVec.add_zero]
  · have hnop : opcodeAt s = 0x00#8 := readsZeroInGap s s.pc hgap
    have hgo : FetchGoes s (lengthOf (opcodeAt s)) := fun j _ => accessStops_of_lenient hlenient _
    rw [step_of_running hf hh, fetchThen_of_go exec hgo, instrAt, hnop]
    have hdelay (t : State) : withEiDelay s t = t := if_neg (by simp [hpend])
    have hone : fetched s 1 = { s with
        pc := s.pc + 1#16
        ticks := s.ticks + 4
        diag := s.diag ++ [.illegalAccess (regionOf s.pc) s.pc .read] } := by
      simp [fetched, fetchRecords, accessRecord, hgap]
    exact congrArg Host.Outcome.next ((hdelay _).trans hone)
  · exact step_of_fetch_stop hf hh hk hgo hstop
  · rw [exec, execPrefixCb, fetch8Then_of_stop hstop, chargeRead_of_stop hstop]

/-- Everything a step can do: an idle step, a fetch that stops it, or the instruction at PC and the EI delay. -/
theorem step_cases {s t : State} (h : step s = .next t) : s.fatal = false ∧
    ((s.halted = true ∧ t = idleStep s) ∨
      (s.halted = false ∧ ∃ n, n < lengthOf (opcodeAt s) ∧ FetchGoes s n ∧
        accessStops s (s.pc + BitVec.ofNat 16 n) = true ∧
        t = stoppedAt (fetched s n) (s.pc + BitVec.ofNat 16 n) .read) ∨
      (s.halted = false ∧ FetchGoes s (lengthOf (opcodeAt s)) ∧
        ∃ u, exec (instrAt s) (fetched s (lengthOf (opcodeAt s))) = .next u ∧ t = withEiDelay s u)) := by
  cases hfatal : s.fatal with
  | true => rw [step, if_pos hfatal] at h; cases h
  | false =>
    refine ⟨rfl, ?_⟩
    cases hhalted : s.halted with
    | true =>
      rw [step_of_halted hfatal hhalted] at h
      exact .inl ⟨rfl, (Host.Outcome.next.inj h).symm⟩
    | false =>
      rcases fetchGoes_or_stops s (lengthOf (opcodeAt s)) with hgo | ⟨n, hn, hgo, hstop⟩
      · rw [step_of_running hfatal hhalted, fetchThen_of_go exec hgo] at h
        exact .inr (.inr ⟨rfl, hgo, exists_of_endStep h⟩)
      · rw [step_of_fetch_stop hfatal hhalted hn hgo hstop] at h
        exact .inr (.inl ⟨rfl, n, hn, hgo, hstop, (Host.Outcome.next.inj h).symm⟩)

end Sys2Proof.Claims
end

section
/-! Noninterference: two runs from states that agree except in IME, `ime_pending`, the stopped latch, the log and the
tick count (10_state R28, R31, R36, R37) make the same accesses with the same bytes and end in two such states. -/

namespace Sys2Proof.Claims

open Sys2Proof.Machine

/-- `s` with what no instruction reads taken from `u`. -/
def withUnread (u s : State) : State :=
  { s with ime := u.ime, imePending := u.imePending, stopped := u.stopped, diag := u.diag, ticks := u.ticks }

/-- Both answer a next state, and the two differ at most in what no instruction reads. -/
def Agree (r r' : Result) : Prop := ∃ s u : State, r = .next s ∧ r' = .next (withUnread u s)

section
variable {u s : State} {addr : Word}

theorem agree_next {t t' : State} (h : t' = withUnread t' t) : Agree (.next t) (.next t') :=
  ⟨t, t', rfl, congrArg _ h⟩

/-- Conditions read F only (46_control R230). -/
theorem agree_cond {cc : Cond} {a a' b b' : Result} (ht : Agree a a') (hf : Agree b b') :
    Agree (if s.cond cc then a else b) (if (withUnread u s).cond cc then a' else b') := by
  have hcond : (withUnread u s).cond cc = s.cond cc := by cases cc <;> rfl
  rw [hcond]
  split
  · exact ht
  · exact hf

theorem chargeRead_withUnread :
    chargeRead addr (withUnread u s) = withUnread (chargeRead addr (withUnread u s)) (chargeRead addr s) := by
  unfold chargeRead
  split <;> rfl

theorem writeByte_withUnread {v : Byte} :
    writeByte addr v (withUnread u s) = withUnread (writeByte addr v (withUnread u s)) (writeByte addr v s) := by
  rw [writeByte_eq, writeByte_eq (s := s)]
  have hmem : (writeByte addr v (withUnread u s)).mem = (writeByte addr v s).mem := by
    unfold writeByte cartWrite
    (repeat' split) <;> simp_all [withUnread]
  rw [hmem]
  rfl

theorem agree_readThen {k k' : Byte → State → Result} (hk : ∀ v s u, Agree (k v s) (k' v (withUnread u s))) :
    Agree (readThen addr s k) (readThen addr (withUnread u s) k') := by
  cases h : accessStops s addr with
  | false =>
    rw [readThen_of_go h, readThen_of_go (s := withUnread u s) h, chargeRead_withUnread]
    exact hk _ _ _
  | true =>
    rw [readThen_of_stop h, readThen_of_stop (s := withUnread u s) h]
    exact agree_next chargeRead_withUnread

theorem agree_writeThen {v : Byte} {k k' : State → Result} (hk : ∀ s u, Agree (k s) (k' (withUnread u s))) :
    Agree (writeThen addr v s k) (writeThen addr v (withUnread u s) k') := by
  cases h : accessStops s addr with
  | false =>
    rw [writeThen_of_go h, writeThen_of_go (s := withUnread u s) h, writeByte_withUnread]
    exact hk _ _
  | true =>
    rw [writeThen_of_stop h, writeThen_of_stop (s := withUnread u s) h]
    exact agree_next writeByte_withUnread

theorem agree_fetch8Then {k k' : Byte → State → Result} (hk : ∀ v s u, Agree (k v s) (k' v (withUnread u s))) :
    Agree (fetch8Then s k) (fetch8Then (withUnread u s) k') :=
  agree_readThen fun v s u => hk v (s.setPc (s.pc + 1#16)) u

theorem agree_pushByteThen {v : Byte} {k k' : State → Result} (hk : ∀ s u, Agree (k s) (k' (withUnread u s))) :
    Agree (pushByteThen v s k) (pushByteThen v (withUnread u s) k') :=
  agree_writeThen (s := s.setSp (s.sp - 1#16)) hk

theorem agree_push16Then {v : Word} {k k' : State → Result} (hk : ∀ s u, Agree (k s) (k' (withUnread u s))) :
    Agree (push16Then v s k) (push16Then v (withUnread u s) k') :=
  agree_pushByteThen fun _ _ => agree_pushByteThen hk

/-- A push after internal cycles, as in PUSH and the calls. -/
theorem agree_push16Then_internal {n : Nat} {v : Word} {k k' : State → Result}
    (hk : ∀ s u, Agree (k s) (k' (withUnread u s))) :
    Agree (push16Then v (internal n s) k) (push16Then v (internal n (withUnread u s)) k') :=
  agree_push16Then (s := internal n s) (u := internal n (withUnread u s)) hk

theorem agree_popByteThen {k k' : Byte → State → Result} (hk : ∀ v s u, Agree (k v s) (k' v (withUnread u s))) :
    Agree (popByteThen s k) (popByteThen (withUnread u s) k') :=
  agree_readThen fun v s u => hk v (s.setSp (s.sp + 1#16)) u

theorem agree_pop16Then {k k' : Word → State → Result} (hk : ∀ v s u, Agree (k v s) (k' v (withUnread u s))) :
    Agree (pop16Then s k) (pop16Then (withUnread u s) k') :=
  agree_popByteThen fun _ _ _ => agree_popByteThen fun _ => hk _

theorem agree_withHl {k : Byte → State → State}
    (hk : ∀ v s u, k v (withUnread u s) = withUnread (k v (withUnread u s)) (k v s)) :
    Agree (withHl s k) (withHl (withUnread u s) k) :=
  agree_readThen fun v s u => agree_next (hk v s u)

theorem agree_modifyHl {f : Byte → State → AluResult} (hf : ∀ v s u, f v (withUnread u s) = f v s) :
    Agree (modifyHl f s) (modifyHl f (withUnread u s)) :=
  agree_readThen fun v s u => by
    rw [hf]
    exact agree_writeThen fun _ _ => agree_next rfl

theorem agree_shiftHl (f : Byte → Bool → ShiftResult) : Agree (shiftHl f s) (shiftHl f (withUnread u s)) :=
  agree_readThen fun _ _ _ => agree_writeThen fun _ _ => agree_next rfl

theorem agree_rewriteHl (f : Byte → Byte) : Agree (rewriteHl f s) (rewriteHl f (withUnread u s)) :=
  agree_readThen fun _ _ _ => agree_writeThen fun _ _ => agree_next rfl

theorem agree_loadReg8 (r : Reg8) : Agree (loadReg8 r addr s) (loadReg8 r addr (withUnread u s)) :=
  agree_readThen fun _ _ _ => by cases r <;> exact agree_next rfl

theorem agree_storeByte (v : Byte) : Agree (storeByte addr v s) (storeByte addr v (withUnread u s)) :=
  agree_writeThen fun _ _ => agree_next rfl

theorem agree_returnWith {k : State → State}
    (hk : ∀ s u, k (withUnread u s) = withUnread (k (withUnread u s)) (k s)) :
    Agree (returnWith k s) (returnWith k (withUnread u s)) :=
  agree_pop16Then fun v s u => by
    have h := hk (s.setPc v) u
    exact agree_next (t := internal 1 (k (s.setPc v))) (t' := internal 1 (k (withUnread u (s.setPc v))))
      (by rw [h]; rfl)

theorem agree_callTo : Agree (callTo addr s) (callTo addr (withUnread u s)) :=
  agree_push16Then_internal fun _ _ => agree_next rfl

end

/-- Each constructor by its accesses; what it computes between them reads none of the five. -/
theorem agree_exec_of_ne_prefixCb {i : Instr} (hi : i ≠ .prefixCb) (u s : State) :
    Agree (exec i s) (exec i (withUnread u s)) := by
  cases i with simp only [exec]
  | prefixCb => exact absurd rfl hi
  | rlcHl | rrcHl | rlHl | rrHl | slaHl | sraHl | swapHl | srlHl => exact agree_shiftHl _
  | resHl bit | setHl bit => exact agree_rewriteHl _
  | bitHl bit => exact agree_readThen fun _ _ _ => agree_next rfl
  | incHl | decHl => exact agree_modifyHl fun _ _ _ => rfl
  | addAHl | adcAHl | subAHl | sbcAHl | andAHl | xorAHl | orAHl | cpAHl => exact agree_withHl fun _ _ _ => rfl
  | ldABc | ldADe | ldAA16 addr | ldhAA8 n | ldhAC | ldRHl r => exact agree_loadReg8 _
  | ldBcA | ldDeA | ldA16A addr | ldhA8A n | ldhCA | ldHlN8 n => exact agree_storeByte _
  | ldHlR r => cases r <;> exact agree_storeByte _
  | ldAHlInc | ldAHlDec => exact agree_readThen fun _ _ _ => agree_next rfl
  | ldHlIncA | ldHlDecA => exact agree_writeThen fun _ _ => agree_next rfl
  | ldA16Sp addr => exact agree_writeThen fun _ _ => agree_writeThen fun _ _ => agree_next rfl
  | pushAf => exact agree_push16Then_internal fun _ _ => agree_next rfl
  | pushRr rr => cases rr <;> exact agree_push16Then_internal fun _ _ => agree_next rfl
  | popAf => exact agree_pop16Then fun _ _ _ => agree_next rfl
  | popRr rr => cases rr <;> exact agree_pop16Then fun _ _ _ => agree_next rfl
  | callA16 addr | rstVec vec => exact agree_callTo
  | callCcA16 cc addr => exact agree_cond agree_callTo (agree_next rfl)
  | jrCcE8 cc n | jpCcA16 cc addr => exact agree_cond (agree_next rfl) (agree_next rfl)
  | ret | reti => exact agree_returnWith fun _ _ => rfl
  | retCc cc =>
    exact agree_cond (agree_returnWith (s := internal 1 s) (u := internal 1 (withUnread u s)) fun _ _ => rfl)
      (agree_next rfl)
  | ldRrN16 rr n | incRr rr | decRr rr | addHlRr rr => cases rr <;> exact agree_next rfl
  | ldRR r r' => cases r <;> cases r' <;> exact agree_next rfl
  | ldRN8 r n | incR r | decR r | resR bit r | setR bit r | rlcR r | rrcR r | rlR r | rrR r | slaR r | sraR r
  | swapR r | srlR r => cases r <;> exact agree_next rfl
  | _ => exact agree_next rfl

theorem agree_exec (i : Instr) (u s : State) : Agree (exec i s) (exec i (withUnread u s)) := by
  by_cases hi : i = .prefixCb
  · subst hi
    simp only [exec, execPrefixCb]
    refine agree_fetch8Then fun sub s u => ?_
    rw [runCb_eq_exec, runCb_eq_exec]
    exact agree_exec_of_ne_prefixCb (decodeCb_ne_prefixCb sub) u s
  · exact agree_exec_of_ne_prefixCb hi u s

theorem agree_fetchThen {k : Instr → State → Result} (hk : ∀ i u s, Agree (k i s) (k i (withUnread u s)))
    (u s : State) : Agree (fetchThen s k) (fetchThen (withUnread u s) k) := by
  rw [fetchThen_eq, fetchThen_eq]
  refine agree_fetch8Then fun op s u => ?_
  rcases lengthOf_cases op with h | h | h
  · rw [fetchRestThen_of_length_one _ k h 0 0, fetchRestThen_of_length_one _ k h 0 0]
    exact hk _ u s
  · rw [fetchRestThen_of_length_two _ k h 0, fetchRestThen_of_length_two _ k h 0]
    exact agree_fetch8Then fun b1 s u => hk _ u s
  · rw [fetchRestThen_of_length_three _ k h, fetchRestThen_of_length_three _ k h]
    exact agree_fetch8Then fun b1 s u => agree_fetch8Then fun b2 s u => hk _ u s

/-- The EI delay writes only what no instruction reads. -/
theorem sameButUnread_withEiDelay (s u t t' : State) :
    SameButUnread (withEiDelay s t) (withEiDelay t' (withUnread u t)) := by
  unfold withEiDelay
  split <;> split <;> rfl

/-- Settles O11: the idle steps agree, and so do the steps that run an instruction, by `agree_fetchThen`. -/
theorem noInstructionReadsUnreadState : Obligations.NoInstructionReadsUnreadState := by
  intro s t hsame
  obtain ⟨u, rfl⟩ : ∃ u, t = withUnread u s := ⟨t, hsame⟩
  cases hfatal : s.fatal with
  | true => exact .inr ⟨if_pos hfatal, if_pos hfatal⟩
  | false =>
    left
    cases hhalted : s.halted with
    | true =>
      exact ⟨_, _, step_of_halted hfatal hhalted, step_of_halted (s := withUnread u s) hfatal hhalted, rfl⟩
    | false =>
      obtain ⟨s', u', hs, hu⟩ := agree_fetchThen agree_exec u s
      refine ⟨withEiDelay s s', withEiDelay (withUnread u s) (withUnread u' s'), ?_, ?_,
        sameButUnread_withEiDelay s u' s' _⟩
      · rw [step_of_running hfatal hhalted, hs]
        rfl
      · rw [step_of_running (s := withUnread u s) hfatal hhalted, hu]
        rfl

end Sys2Proof.Claims
end

section
/-! What every instruction keeps, said once for all of them: the invariant, the parameters, a read-only cartridge, the
latches and flags it does not write, and bounds on its records and its time. -/

namespace Sys2Proof.Claims

open Sys2Proof.Machine

/-! The status parts an instruction writes. -/

/-- F and the latches. -/
def statusParts : List Part := [.flags, .ime, .imePending, .halted, .stopped]

/-- The status parts that an instruction may write: F where 10_state R22 lists it, H being written with any other flag,
and the latches (10_state R28 to R31, 30_encoding R102). -/
def statusWritten (i : Instr) : List Part :=
  if writesH i then [.flags]
  else
    match i with
    | .halt | .illegalD3 | .illegalDB | .illegalDD | .illegalE3 | .illegalE4 | .illegalEB | .illegalEC | .illegalED
    | .illegalF4 | .illegalFC | .illegalFD => [.halted]
    | .stop => [.stopped]
    | .di => [.ime, .imePending]
    | .ei => [.imePending]
    | .reti => [.ime]
    | _ => []

theorem flags_mem_statusWritten {i : Instr} (h : writesH i = true) : .flags ∈ statusWritten i := by
  simp [statusWritten, h]

/-! What one change of the state keeps. -/

/-- From `s` to `t` in `n` machine cycles, with at most `k` records, and no status part written but those listed. -/
structure Moves (parts : List Part) (n k : Nat) (s t : State) : Prop where
  inv : s.Inv → t.Inv
  params : t.params = s.params
  status : ∀ p ∈ statusParts, p ∉ parts → p.same s t
  cartridge : s.params.cartWrite = .ignore → ∀ x : Word, x.toNat ≤ 0x7FFF → readByte t x = readByte s x
  log : ∃ records : List Diag, t.diag = s.diag ++ records ∧ records.length ≤ k
  time : t.ticks = s.ticks + 4 * n
  fatal : t.fatal = true → s.fatal = true ∨ s.params.strictAccess = true

section
variable {parts : List Part} {m n j k : Nat} {s t u : State}

theorem Moves.mono (h : Moves parts n j s t) (hjk : j ≤ k) : Moves parts n k s t := by
  obtain ⟨records, hdiag, hlength⟩ := h.log
  exact { h with log := ⟨records, hdiag, hlength.trans hjk⟩ }

theorem Moves.trans (h : Moves parts m j s t) (h' : Moves parts n k t u) : Moves parts (m + n) (j + k) s u where
  inv hs := h'.inv (h.inv hs)
  params := h'.params.trans h.params
  status p hp hnot := p.same_trans (h.status p hp hnot) (h'.status p hp hnot)
  cartridge hcart x hx := (h'.cartridge (h.params ▸ hcart) x hx).trans (h.cartridge hcart x hx)
  log := by
    obtain ⟨records, hdiag, hlength⟩ := h.log
    obtain ⟨records', hdiag', hlength'⟩ := h'.log
    exact ⟨records ++ records', by rw [hdiag', hdiag, List.append_assoc],
      by rw [List.length_append]; exact Nat.add_le_add hlength hlength'⟩
  time := by rw [h'.time, h.time]; omega
  fatal hu := (h'.fatal hu).elim h.fatal fun hstrict => .inr (h.params ▸ hstrict)

/-- As `trans`, of a second change that leaves no record. -/
theorem Moves.andThen (h : Moves parts m k s t) (h' : Moves parts n 0 t u) : Moves parts (m + n) k s u := h.trans h'

/-- A change of registers or of listed status parts: no time passes, and nothing else is written. -/
theorem moves_of_quiet (hinv : s.Inv → t.Inv) (hstatus : ∀ p ∈ statusParts, p ∉ parts → p.same s t)
    (hmem : t.mem = s.mem) (hparams : t.params = s.params) (hdiag : t.diag = s.diag) (hticks : t.ticks = s.ticks)
    (hfatal : t.fatal = s.fatal) : Moves parts 0 k s t where
  inv := hinv
  params := hparams
  status := hstatus
  cartridge _ x _ := readByte_congr hmem hparams x
  log := ⟨[], by rw [hdiag, List.append_nil], Nat.zero_le k⟩
  time := hticks
  fatal ht := .inl (hfatal ▸ ht)

theorem moves_refl (s : State) : Moves parts 0 k s s :=
  moves_of_quiet id (by simp [statusParts, Part.same]) rfl rfl rfl rfl rfl

variable (s)

theorem moves_setReg8 (r : Reg8) (v : Byte) : Moves parts 0 k s (s.setReg8 r v) :=
  moves_of_quiet (inv_setReg8 · r v) (by simp [statusParts, Part.same]) (by simp) (by simp) (by simp) (by simp)
    (by simp)

theorem moves_setReg16 (rr : Reg16) (v : Word) : Moves parts 0 k s (s.setReg16 rr v) :=
  moves_of_quiet (inv_setReg16 · rr v) (by simp [statusParts, Part.same]) (by simp) (by simp) (by simp) (by simp)
    (by simp)

theorem moves_setHl (v : Word) : Moves parts 0 k s (s.setHl v) := moves_setReg16 s .hl v

theorem moves_setSp (v : Word) : Moves parts 0 k s (s.setSp v) := moves_setReg16 s .sp v

theorem moves_setPair (rr : StackPair) (v : Word) : Moves parts 0 k s (s.setPair rr v) :=
  moves_of_quiet (inv_setPair · rr v) (by simp [statusParts, Part.same]) (by simp) (by simp) (by simp) (by simp)
    (by simp)

theorem moves_setPc (v : Word) : Moves parts 0 k s (s.setPc v) :=
  moves_of_quiet (inv_setPc · v) (by simp [statusParts, Part.same]) rfl rfl rfl rfl rfl

theorem moves_setFlags (h : .flags ∈ parts) (fl : Flags) : Moves parts 0 k s (s.setFlags fl) :=
  moves_of_quiet (inv_setFlags · fl) (by simp [statusParts, Part.same, h]) rfl rfl rfl rfl rfl

theorem moves_setAf (h : .flags ∈ parts) (v : Word) : Moves parts 0 k s (s.setAf v) :=
  moves_of_quiet (inv_setAf · v) (by simp [statusParts, Part.same, h]) rfl rfl rfl rfl rfl

theorem moves_setIme (h : .ime ∈ parts) (b : Bool) : Moves parts 0 k s (s.setIme b) :=
  moves_of_quiet (inv_setIme · b) (by simp [statusParts, Part.same, h]) rfl rfl rfl rfl rfl

theorem moves_setImePending (h : .imePending ∈ parts) (b : Bool) : Moves parts 0 k s (s.setImePending b) :=
  moves_of_quiet (inv_setImePending · b) (by simp [statusParts, Part.same, h]) rfl rfl rfl rfl rfl

theorem moves_setHalted (h : .halted ∈ parts) (b : Bool) : Moves parts 0 k s (s.setHalted b) :=
  moves_of_quiet (inv_setHalted · b) (by simp [statusParts, Part.same, h]) rfl rfl rfl rfl rfl

theorem moves_setStopped (h : .stopped ∈ parts) (b : Bool) : Moves parts 0 k s (s.setStopped b) :=
  moves_of_quiet (inv_setStopped · b) (by simp [statusParts, Part.same, h]) rfl rfl rfl rfl rfl

theorem moves_writeA (h : .flags ∈ parts) (w : AluResult) : Moves parts 0 k s (writeA w s) :=
  (moves_setReg8 s .a w.r).andThen (moves_setFlags _ h w.fl)

theorem moves_internal (n : Nat) : Moves parts n k s (internal n s) where
  inv h := inv_internal h n
  params := rfl
  status := by simp [statusParts, Part.same]
  cartridge _ _ _ := rfl
  log := ⟨[], (List.append_nil _).symm, Nat.zero_le k⟩
  time := rfl
  fatal := .inl

theorem moves_illegalOpcode (h : .halted ∈ parts) (op : Byte) : Moves parts 0 (k + 1) s (illegalOpcode op s) where
  inv hs := inv_illegalOpcode hs op
  params := rfl
  status := by simp [statusParts, Part.same, h]
  cartridge _ _ _ := rfl
  log := ⟨_, illegalOpcode_diag s op, Nat.succ_le_succ (Nat.zero_le k)⟩
  time := rfl
  fatal := .inl

theorem length_accessRecord_le (addr : Word) (dir : Direction) : (accessRecord addr dir).length ≤ 1 := by
  unfold accessRecord
  split <;> simp

/-- An access sets `fatal` under STRICT_ACCESS only. -/
theorem strictAccess_of_accessStops {addr : Word} (h : accessStops s addr = true) : s.params.strictAccess = true :=
  (Bool.and_eq_true_iff.1 h).1

theorem moves_chargeRead (addr : Word) : Moves parts 1 (k + 1) s (chargeRead addr s) where
  inv := inv_chargeRead
  params := chargeRead_params ..
  status := by simp [statusParts, Part.same]
  cartridge _ x _ := readByte_chargeRead ..
  log := ⟨_, chargeRead_diag, (length_accessRecord_le ..).trans (Nat.succ_le_succ (Nat.zero_le k))⟩
  time := chargeRead_ticks ..
  fatal h := by
    rw [chargeRead_fatal, Bool.or_eq_true] at h
    exact h.imp_right (strictAccess_of_accessStops s)

theorem regionOf_of_le {x : Word} (h : x.toNat ≤ 0x7FFF) : regionOf x = .cartridge := if_pos h

/-- A write leaves a read-only cartridge (20_memory R58). -/
theorem readByte_writeByte_of_ignore (hcart : s.params.cartWrite = .ignore) (addr : Word) (v : Byte) {x : Word}
    (hx : x.toNat ≤ 0x7FFF) : readByte (writeByte addr v s) x = readByte s x := by
  by_cases hne : x = addr
  · subst hne
    refine readByte_congr ?_ (writeByte_params ..) x
    simp [writeByte, cartWrite, regionOf_of_le hx, hcart]
  · exact readByte_writeByte_of_ne hne

theorem moves_writeByte (addr : Word) (v : Byte) : Moves parts 1 (k + 1) s (writeByte addr v s) where
  inv := inv_writeByte
  params := writeByte_params ..
  status := by simp [statusParts, Part.same]
  cartridge hcart _ hx := readByte_writeByte_of_ignore s hcart addr v hx
  log := ⟨_, writeByte_diag, (length_accessRecord_le ..).trans (Nat.succ_le_succ (Nat.zero_le k))⟩
  time := writeByte_ticks ..
  fatal h := by
    rw [writeByte_fatal, Bool.or_eq_true] at h
    exact h.imp_right (strictAccess_of_accessStops s)

end

/-! What a meaning keeps. -/

/-- The next state that `r` is has been reached in `n` machine cycles, or in fewer where STRICT_ACCESS is on. -/
def Goes (parts : List Part) (n k : Nat) (s : State) (r : Result) : Prop :=
  Answers (fun t => ∃ m, m ≤ n ∧ (s.params.strictAccess = false → m = n) ∧ Moves parts m k s t) r

section
variable {parts : List Part} {m n j k : Nat} {s t : State} {addr : Word}

/-- A change of registers, and then time. -/
theorem Moves.thenInternal (h : Moves parts 0 k s t) (n : Nat) : Moves parts n k s (internal n t) := by
  have h' := h.andThen (moves_internal t n)
  rwa [Nat.zero_add] at h'

/-- Nothing is said about the status parts. -/
theorem Moves.toStatusParts (h : Moves parts n k s t) : Moves statusParts n k s t :=
  { h with status := fun _ hp hnot => absurd hp hnot }

theorem goes_next (h : Moves parts n k s t) : Goes parts n k s (.next t) :=
  answers_next ⟨n, le_rfl, fun _ => rfl, h⟩

theorem Moves.goes {r : Result} (h : Moves parts m j s t) (hr : Goes parts n k t r) :
    Goes parts (m + n) (j + k) s r := by
  obtain ⟨u, rfl, p, hle, hexact, hp⟩ := hr
  exact answers_next ⟨m + p, by omega, fun hl => by rw [hexact (h.params ▸ hl)], h.trans hp⟩

theorem goes_of_stop (hstop : accessStops s addr = true) (h : Moves parts m k s t) (hmn : m ≤ n) :
    Goes parts n k s (.next t) :=
  answers_next ⟨m, hmn, fun hl => by simp [accessStops, hl] at hstop, h⟩

theorem goes_readThen {f : Byte → State → Result} (h : ∀ v t, Goes parts n k t (f v t)) :
    Goes parts (n + 1) (k + 1) s (readThen addr s f) := by
  cases hs : accessStops s addr with
  | false =>
    rw [readThen_of_go hs, Nat.add_comm n, Nat.add_comm k]
    exact (moves_chargeRead (k := 0) s addr).goes (h _ _)
  | true =>
    rw [readThen_of_stop hs]
    exact goes_of_stop hs (moves_chargeRead s addr) (Nat.succ_le_succ (Nat.zero_le n))

theorem goes_writeThen {v : Byte} {f : State → Result} (h : ∀ t, Goes parts n k t (f t)) :
    Goes parts (n + 1) (k + 1) s (writeThen addr v s f) := by
  cases hs : accessStops s addr with
  | false =>
    rw [writeThen_of_go hs, Nat.add_comm n, Nat.add_comm k]
    exact (moves_writeByte (k := 0) s addr v).goes (h _)
  | true =>
    rw [writeThen_of_stop hs]
    exact goes_of_stop hs (moves_writeByte s addr v) (Nat.succ_le_succ (Nat.zero_le n))

/-- Registers and time before the rest of a meaning. -/
theorem Moves.goes_rest {r : Result} (h : Moves parts m 0 s t) (hr : Goes parts n k t r) :
    Goes parts (n + m) k s r := by
  rw [Nat.add_comm, ← Nat.zero_add k]
  exact h.goes hr

theorem goes_push16Then {v : Word} {f : State → Result} (h : ∀ t, Goes parts n k t (f t)) :
    Goes parts (n + 2) (k + 2) s (push16Then v s f) :=
  (moves_setSp s _).goes_rest (goes_writeThen fun t => (moves_setSp t _).goes_rest (goes_writeThen h))

theorem goes_pop16Then {f : Word → State → Result} (h : ∀ v t, Goes parts n k t (f v t)) :
    Goes parts (n + 2) (k + 2) s (pop16Then s f) :=
  goes_readThen fun _ t => (moves_setSp t _).goes_rest
    (goes_readThen fun _ u => (moves_setSp u _).goes_rest (h _ _))

/-! The shapes of the meanings. -/

theorem goes_withHl {f : Byte → State → State} (h : ∀ v t, Moves parts n k t (f v t)) :
    Goes parts (n + 1) (k + 1) s (withHl s f) :=
  goes_readThen fun v t => goes_next (h v t)

theorem goes_loadReg8 (r : Reg8) : Goes parts 1 2 s (loadReg8 r addr s) :=
  goes_readThen fun _ t => goes_next (moves_setReg8 t r _)

theorem goes_storeByte (v : Byte) : Goes parts 1 2 s (storeByte addr v s) :=
  goes_writeThen fun t => goes_next (moves_refl t)

theorem goes_modifyHl (hflags : .flags ∈ parts) (f : Byte → State → AluResult) : Goes parts 2 2 s (modifyHl f s) :=
  goes_readThen fun _ _ => goes_writeThen fun t => goes_next (moves_setFlags t hflags _)

theorem goes_shiftHl (hflags : .flags ∈ parts) (f : Byte → Bool → ShiftResult) : Goes parts 2 2 s (shiftHl f s) :=
  goes_readThen fun _ _ => goes_writeThen fun t => goes_next (moves_setFlags t hflags _)

theorem goes_rewriteHl (f : Byte → Byte) : Goes parts 2 2 s (rewriteHl f s) :=
  goes_readThen fun _ _ => goes_writeThen fun t => goes_next (moves_refl t)

theorem goes_setReg8_setFlags (hflags : .flags ∈ parts) (r : Reg8) (v : Byte) (fl : Flags) :
    Goes parts 0 k s (.next ((s.setReg8 r v).setFlags fl)) :=
  goes_next ((moves_setReg8 s r v).andThen (moves_setFlags _ hflags fl))

theorem goes_setPc_internal (v : Word) (n : Nat) : Goes parts n k s (.next (internal n (s.setPc v))) :=
  goes_next ((moves_setPc s v).thenInternal n)

theorem goes_callTo : Goes parts 3 2 s (callTo addr s) :=
  (moves_internal s 1).goes_rest (goes_push16Then fun t => goes_next (moves_setPc t _))

theorem goes_returnWith {f : State → State} (h : ∀ t, Moves parts 0 0 t (f t)) :
    Goes parts 3 2 s (returnWith f s) :=
  goes_pop16Then fun v t => goes_next (((moves_setPc t v).andThen (h _)).thenInternal 1)

/-- A conditional instruction takes the cycles of its branch. -/
theorem exists_goes_cond {cc : Cond} {length cycles cycles' : Nat} {r r' : Result}
    (htaken : 4 * length + 4 * m = cycles ∧ Goes parts m k s r)
    (hpassed : 4 * length + 4 * n = cycles' ∧ Goes parts n k s r') :
    ∃ p, 4 * length + 4 * p = (if holds s cc then cycles else cycles') ∧
      Goes parts p k s (if s.cond cc then r else r') := by
  rw [cond_eq_holds]
  split
  · exact ⟨m, htaken⟩
  · exact ⟨n, hpassed⟩

end

/-- An instruction takes what the table of T-cycles leaves after its fetch, makes at most two records and writes the
status parts that are its own. -/
theorem goes_exec {i : Instr} (hi : i ≠ .prefixCb) (s : State) :
    ∃ n, 4 * (encode i).length + 4 * n = tCycles (taken s i) i ∧ Goes (statusWritten i) n 2 s (exec i s) := by
  cases i with simp only [exec]
  | prefixCb => exact absurd rfl hi
  | rlcHl | rrcHl | rlHl | rrHl | slaHl | sraHl | swapHl | srlHl =>
    exact ⟨2, rfl, goes_shiftHl (flags_mem_statusWritten rfl) _⟩
  | resHl bit | setHl bit => exact ⟨2, rfl, goes_rewriteHl _⟩
  | bitHl bit => exact ⟨1, rfl, goes_readThen fun _ t => goes_next (moves_setFlags t (flags_mem_statusWritten rfl) _)⟩
  | incHl | decHl => exact ⟨2, rfl, goes_modifyHl (flags_mem_statusWritten rfl) _⟩
  | addAHl | adcAHl | subAHl | sbcAHl | andAHl | xorAHl | orAHl =>
    exact ⟨1, rfl, goes_withHl fun _ t => moves_writeA t (flags_mem_statusWritten rfl) _⟩
  | cpAHl => exact ⟨1, rfl, goes_withHl fun _ t => moves_setFlags t (flags_mem_statusWritten rfl) _⟩
  | ldABc | ldADe | ldAA16 addr | ldhAA8 n | ldhAC | ldRHl r => exact ⟨1, rfl, goes_loadReg8 _⟩
  | ldBcA | ldDeA | ldA16A addr | ldhA8A n | ldhCA | ldHlN8 n | ldHlR r => exact ⟨1, rfl, goes_storeByte _⟩
  | ldAHlInc | ldAHlDec =>
    exact ⟨1, rfl, goes_readThen fun _ t => goes_next ((moves_setReg8 t .a _).andThen (moves_setHl _ _))⟩
  | ldHlIncA | ldHlDecA => exact ⟨1, rfl, goes_writeThen fun t => goes_next (moves_setHl t _)⟩
  | ldA16Sp addr => exact ⟨2, rfl, goes_writeThen fun _ => goes_writeThen fun t => goes_next (moves_refl t)⟩
  | pushAf | pushRr rr =>
    exact ⟨3, rfl, (moves_internal s 1).goes_rest (goes_push16Then fun t => goes_next (moves_refl t))⟩
  | popAf => exact ⟨2, rfl, goes_pop16Then fun _ t => goes_next (moves_setAf t (flags_mem_statusWritten rfl) _)⟩
  | popRr rr => exact ⟨2, rfl, goes_pop16Then fun _ t => goes_next (moves_setPair t rr _)⟩
  | callA16 addr | rstVec vec => exact ⟨3, rfl, goes_callTo⟩
  | ret => exact ⟨3, rfl, goes_returnWith moves_refl⟩
  | reti => exact ⟨3, rfl, goes_returnWith fun t => moves_setIme t (by decide) _⟩
  | jrE8 n | jpA16 addr => exact ⟨1, rfl, goes_setPc_internal _ 1⟩
  | jpHl => exact ⟨0, rfl, goes_next (moves_setPc s _)⟩
  | callCcA16 cc addr => exact exists_goes_cond ⟨rfl, goes_callTo⟩ ⟨rfl, goes_next (moves_refl s)⟩
  | jrCcE8 cc n | jpCcA16 cc addr =>
    exact exists_goes_cond ⟨rfl, goes_setPc_internal _ 1⟩ ⟨rfl, goes_next (moves_refl s)⟩
  | retCc cc =>
    exact exists_goes_cond ⟨rfl, (moves_internal s 1).goes_rest (goes_returnWith moves_refl)⟩
      ⟨rfl, goes_next (moves_internal s 1)⟩
  | ldRrN16 rr n => exact ⟨0, rfl, goes_next (moves_setReg16 s rr _)⟩
  | incRr rr | decRr rr => exact ⟨1, rfl, goes_next ((moves_setReg16 s rr _).thenInternal 1)⟩
  | addHlRr rr | ldHlSpE8 n =>
    exact ⟨1, rfl, goes_next
      (((moves_setHl s _).andThen (moves_setFlags _ (flags_mem_statusWritten rfl) _)).thenInternal 1)⟩
  | addSpE8 n =>
    exact ⟨2, rfl, goes_next
      (((moves_setSp s _).andThen (moves_setFlags _ (flags_mem_statusWritten rfl) _)).thenInternal 2)⟩
  | ldSpHl => exact ⟨1, rfl, goes_next ((moves_setSp s _).thenInternal 1)⟩
  | ldRR r r' | ldRN8 r n | resR bit r | setR bit r => exact ⟨0, rfl, goes_next (moves_setReg8 s _ _)⟩
  | incR r | decR r | rlcR r | rrcR r | rlR r | rrR r | slaR r | sraR r | swapR r | srlR r | rlca | rrca | rla | rra
  | cpl | daa => exact ⟨0, rfl, goes_setReg8_setFlags (flags_mem_statusWritten rfl) _ _ _⟩
  | scf | ccf | bitR bit r | cpAR r | cpAN8 n =>
    exact ⟨0, rfl, goes_next (moves_setFlags s (flags_mem_statusWritten rfl) _)⟩
  | addAR r | adcAR r | subAR r | sbcAR r | andAR r | xorAR r | orAR r
  | addAN8 n | adcAN8 n | subAN8 n | sbcAN8 n | andAN8 n | xorAN8 n | orAN8 n =>
    exact ⟨0, rfl, goes_next (moves_writeA s (flags_mem_statusWritten rfl) _)⟩
  | nop => exact ⟨0, rfl, goes_next (moves_refl s)⟩
  | halt => exact ⟨0, rfl, goes_next (moves_setHalted s (by decide) _)⟩
  | stop => exact ⟨0, rfl, goes_next (moves_setStopped s (by decide) _)⟩
  | ei => exact ⟨0, rfl, goes_next (moves_setImePending s (by decide) _)⟩
  | di => exact ⟨0, rfl, goes_next ((moves_setIme s (by decide) _).andThen (moves_setImePending _ (by decide) _))⟩
  | _ => exact ⟨0, rfl, goes_next (moves_illegalOpcode s (by decide) _)⟩

/-- What an instruction that answers `t` keeps. -/
theorem moves_of_exec {i : Instr} {s t : State} (hi : i ≠ .prefixCb) (h : exec i s = .next t) :
    ∃ n, 4 * (encode i).length + 4 * n ≤ tCycles (taken s i) i ∧ Moves (statusWritten i) n 2 s t := by
  obtain ⟨n, hn, _, ht, m, hmn, -, hm⟩ := goes_exec hi s
  obtain rfl := Host.Outcome.next.inj (h.symm.trans ht)
  exact ⟨m, by omega, hm⟩

/-! The step. -/

theorem instrAt_ne_prefixCb (s : State) : instrAt s ≠ .prefixCb := by
  intro h
  have hlength := length_encode_instrAt s
  have hhead := head?_encode_firstInstr (opcodeAt s) (readByte s (s.pc + 1#16)) (readByte s (s.pc + 2#16))
  change (encode (instrAt s)).head? = _ at hhead
  rw [h] at hhead hlength
  have hop : prefixByte = opcodeAt s := Option.some.inj hhead
  rw [← hop] at hlength
  exact absurd hlength (by decide)

theorem moves_fetched {parts : List Part} {s : State} {n : Nat} (hgo : FetchGoes s n) :
    Moves parts n n s (fetched s n) := by
  induction n with
  | zero =>
    rw [fetched_zero]
    exact moves_refl s
  | succ n ih =>
    rw [fetched_succ (hgo n (Nat.lt_succ_self n))]
    exact ((ih fun j hj => hgo j (Nat.lt_succ_of_lt hj)).trans (moves_chargeRead (k := 0) _ _)).andThen
      (moves_setPc _ _)

/-- The EI delay writes the two latches it is about. -/
theorem moves_withEiDelay (s t : State) : Moves statusParts 0 0 t (withEiDelay s t) := by
  rw [← finishStep_eq_withEiDelay]
  exact moves_of_quiet (inv_finishStep · _) (fun _ hp hnot => absurd hp hnot) (by simp) (by simp) (by simp)
    (by simp) (by simp)

theorem tCycles_le (b : Bool) (i : Instr) : tCycles b i ≤ 24 := by
  unfold tCycles
  cases b <;> split <;> decide

/-- Every step takes one to six machine cycles and leaves at most five records. -/
theorem moves_of_step {s t : State} (h : step s = .next t) : ∃ n, 1 ≤ n ∧ n ≤ 6 ∧ Moves statusParts n 5 s t := by
  have hlength := lengthOf_le (opcodeAt s)
  obtain ⟨-, ⟨-, rfl⟩ | ⟨-, n, hn, hgo, hstop, rfl⟩ | ⟨-, hgo, u, hu, rfl⟩⟩ := step_cases h
  · exact ⟨1, le_rfl, by decide, moves_internal s 1⟩
  · rw [← chargeRead_of_stop (s := fetched s n) hstop]
    exact ⟨n + 1, by omega, by omega, ((moves_fetched hgo).trans (moves_chargeRead (k := 0) _ _)).mono (by omega)⟩
  · obtain ⟨m, hm, hmoves⟩ := moves_of_exec (instrAt_ne_prefixCb s) hu
    have hle := tCycles_le (taken (fetched s (lengthOf (opcodeAt s))) (instrAt s)) (instrAt s)
    rw [length_encode_instrAt] at hm
    refine ⟨lengthOf (opcodeAt s) + m, by omega, by omega, ?_⟩
    exact (((moves_fetched hgo).trans hmoves.toStatusParts).andThen (moves_withEiDelay s u)).mono (by omega)

/-! The statements. -/

/-- Settles O12, from `moves_of_step`. -/
theorem stepKeepsInvariant : Obligations.StepKeepsInvariant := by
  intro s t hinv h
  obtain ⟨n, -, -, hmoves⟩ := moves_of_step h
  exact hmoves.inv hinv

/-- Settles O15, from `moves_of_step`. -/
theorem logAndTicksOnlyGrow : Obligations.LogAndTicksOnlyGrow := by
  intro s t h
  obtain ⟨n, hle, hge, hmoves⟩ := moves_of_step h
  exact ⟨hmoves.log, ⟨n, hmoves.time, hle, hge⟩, hmoves.params⟩

/-- Settles O16, from `moves_of_step`. -/
theorem readOnlyCartridgeNeverChanges : Obligations.ReadOnlyCartridgeNeverChanges := by
  intro s t hcart h
  obtain ⟨n, -, -, hmoves⟩ := moves_of_step h
  exact hmoves.cartridge hcart

/-- Settles O17: a run that agrees with itself answers a next state, of a meaning (`agree_exec`) and of a fetch. -/
theorem noInstructionTraps : Obligations.NoInstructionTraps := by
  refine ⟨fun i s => ?_, fun s hfatal => ?_⟩
  · obtain ⟨t, -, ht, -⟩ := agree_exec i s s
    exact ⟨t, ht⟩
  · cases hhalted : s.halted with
    | true => exact ⟨idleStep s, step_of_halted hfatal hhalted⟩
    | false =>
      obtain ⟨t, -, ht, -⟩ := agree_fetchThen agree_exec s s
      exact ⟨withEiDelay s t, by rw [step_of_running hfatal hhalted, ht]; rfl⟩

/-- Settles O18: under STRICT_ACCESS off the count of `goes_exec` is exact. -/
theorem instructionsTakeTheirTCycles : Obligations.InstructionsTakeTheirTCycles := by
  refine ⟨fun i s hlenient hi => ?_, fun s hfatal hhalted => ?_⟩
  · obtain ⟨n, hn, t, ht, m, -, hexact, hmoves⟩ := goes_exec hi s
    have htime := hmoves.time
    have hm := hexact hlenient
    exact ⟨t, ht, by omega⟩
  · exact ⟨idleStep s, step_of_halted hfatal hhalted, rfl⟩

end Sys2Proof.Claims
end

section
/-! Who writes the latches and the flags (10_state R22, R28 to R31), from what every instruction keeps and from what the
few that write them answer. -/

namespace Sys2Proof.Claims

open Sys2Proof.Machine

/-! The opcode byte of the instruction at PC. -/

section
variable {s : State} {i : Instr} {op : Byte}

theorem opcodeAt_of_instrAt (hi : instrAt s = i) (hop : (encode i).head? = some op) : opcodeAt s = op := by
  subst hi
  exact Option.some.inj ((head?_encode_firstInstr ..).symm.trans hop)

theorem instrAt_of_opcodeAt (hi : ∀ b1 b2, firstInstr op b1 b2 = i) (h : opcodeAt s = op) : instrAt s = i := by
  rw [instrAt, h, hi]

theorem instrAt_eq_di_iff : instrAt s = .di ↔ opcodeAt s = 0xF3#8 :=
  ⟨fun h => opcodeAt_of_instrAt h rfl, instrAt_of_opcodeAt fun _ _ => rfl⟩

theorem instrAt_eq_ei_iff : instrAt s = .ei ↔ opcodeAt s = 0xFB#8 :=
  ⟨fun h => opcodeAt_of_instrAt h rfl, instrAt_of_opcodeAt fun _ _ => rfl⟩

end

/-! The writers of the latches. -/

section
variable {i : Instr}

theorem imePending_mem_statusWritten (h : .imePending ∈ statusWritten i) : i = .di ∨ i = .ei := by
  unfold statusWritten at h
  split at h
  · simp at h
  · split at h <;> simp at h ⊢

theorem ime_mem_statusWritten (h : .ime ∈ statusWritten i) : i = .di ∨ i = .reti := by
  unfold statusWritten at h
  split at h
  · simp at h
  · split at h <;> simp at h ⊢

theorem stopped_mem_statusWritten (h : .stopped ∈ statusWritten i) : i = .stop := by
  unfold statusWritten at h
  split at h
  · simp at h
  · split at h <;> simp at h ⊢

theorem halted_mem_statusWritten (h : .halted ∈ statusWritten i) :
    i = .halt ∨ ∃ op, (i, op) ∈ illegalRows := by
  unfold statusWritten at h
  split at h
  · simp at h
  · split at h <;> simp [illegalRows] at h ⊢

theorem writesH_of_flags_mem (h : .flags ∈ statusWritten i) : writesH i = true := by
  unfold statusWritten at h
  split at h
  · assumption
  · split at h <;> simp at h

end

/-- What an illegal row runs as (30_encoding R102). -/
theorem exec_of_mem_illegalRows {row : Instr × Byte} (hrow : row ∈ illegalRows) (s : State) :
    exec row.1 s = .next (illegalOpcode row.2 s) := by
  fin_cases hrow <;> rfl

/-! What an instruction leaves. -/

section
variable {i : Instr} {s t : State} (hi : i ≠ .prefixCb) (h : exec i s = .next t)
include hi h

theorem status_of_exec {p : Part} (hp : p ∈ statusParts) (hnot : p ∉ statusWritten i) : p.same s t := by
  obtain ⟨n, -, hmoves⟩ := moves_of_exec hi h
  exact hmoves.status p hp hnot

theorem imePending_of_exec (hdi : i ≠ .di) (hei : i ≠ .ei) : t.imePending = s.imePending :=
  status_of_exec hi h (p := .imePending) (by decide) fun hmem =>
    (imePending_mem_statusWritten hmem).elim hdi hei

theorem ime_of_exec (hdi : i ≠ .di) (hreti : i ≠ .reti) : t.ime = s.ime :=
  status_of_exec hi h (p := .ime) (by decide) fun hmem => (ime_mem_statusWritten hmem).elim hdi hreti

theorem stopped_of_exec (hstop : i ≠ .stop) : t.stopped = s.stopped :=
  status_of_exec hi h (p := .stopped) (by decide) fun hmem => hstop (stopped_mem_statusWritten hmem)

end

/-! The EI delay. -/

section
variable {s t : State}

theorem withEiDelay_of_not_pending (h : s.imePending = false ∨ t.imePending = false) : withEiDelay s t = t :=
  if_neg fun ⟨hs, ht, _⟩ => by rcases h with h | h <;> simp_all

theorem withEiDelay_of_pending (hs : s.imePending = true) (ht : t.imePending = true) (hfatal : t.fatal = false) :
    withEiDelay s t = { t with ime := true, imePending := false } := if_pos ⟨hs, ht, hfatal⟩

@[simp] theorem withEiDelay_fatal : (withEiDelay s t).fatal = t.fatal := by
  rw [← finishStep_eq_withEiDelay, finishStep_fatal]

@[simp] theorem withEiDelay_halted : (withEiDelay s t).halted = t.halted := by
  rw [← finishStep_eq_withEiDelay, finishStep_halted]

@[simp] theorem withEiDelay_stopped : (withEiDelay s t).stopped = t.stopped := by
  rw [← finishStep_eq_withEiDelay, finishStep_stopped]

end

/-- An instruction step that STRICT_ACCESS does not end: DI and EI write the latch, any other instruction leaves it
pending or clear as it was (10_state R29). -/
theorem eiDelay_of_exec {s u : State} (hu : exec (instrAt s) (fetched s (lengthOf (opcodeAt s))) = .next u)
    (hfatal : u.fatal = false) :
    (s.imePending = true → (withEiDelay s u).imePending = false ∧
      ((withEiDelay s u).ime = true ↔ opcodeAt s ≠ 0xF3#8)) ∧
    (s.imePending = false → ((withEiDelay s u).imePending = true ↔ opcodeAt s = 0xFB#8) ∧
      (opcodeAt s = 0xFB#8 → (withEiDelay s u).ime = s.ime)) := by
  by_cases hdi : instrAt s = .di
  · have hop := instrAt_eq_di_iff.1 hdi
    rw [hdi] at hu
    obtain rfl := Host.Outcome.next.inj hu
    rw [withEiDelay_of_not_pending (.inr rfl), hop]
    exact ⟨fun _ => ⟨rfl, by simp⟩, fun _ => ⟨by simp, fun h => absurd h (by decide)⟩⟩
  · have hop := mt instrAt_eq_di_iff.2 hdi
    by_cases hei : instrAt s = .ei
    · have hop := instrAt_eq_ei_iff.1 hei
      rw [hei] at hu
      obtain rfl := Host.Outcome.next.inj hu
      refine ⟨fun hpend => ?_, fun hpend => ?_⟩
      · rw [withEiDelay_of_pending hpend rfl hfatal]
        simp [hop]
      · rw [withEiDelay_of_not_pending (.inl hpend), hop]
        exact ⟨by simp, fun _ => rfl⟩
    · have hkept : u.imePending = s.imePending :=
        imePending_of_exec (s := fetched s _) (instrAt_ne_prefixCb s) hu hdi hei
      have hop' := mt instrAt_eq_ei_iff.2 hei
      refine ⟨fun hpend => ?_, fun hpend => ?_⟩
      · rw [withEiDelay_of_pending hpend (hkept.trans hpend) hfatal]
        exact ⟨rfl, fun _ => hop, fun _ => rfl⟩
      · rw [withEiDelay_of_not_pending (.inl hpend), hkept, hpend]
        exact ⟨⟨nofun, fun h => absurd h hop'⟩, fun h => absurd h hop'⟩

/-- Settles O9, from `eiDelay_of_exec`; an idle step writes nothing but the tick count. -/
theorem eiTakesEffectAfterNextInstruction : Obligations.EiTakesEffectAfterNextInstruction := by
  intro s t hfatal h hend
  obtain ⟨-, ⟨hhalted, rfl⟩ | ⟨hhalted, n, -, -, -, rfl⟩ | ⟨hhalted, -, u, hu, rfl⟩⟩ := step_cases h
  · exact ⟨fun _ => ⟨rfl, rfl⟩, fun h' => by simp [hhalted] at h', fun h' => by simp [hhalted] at h'⟩
  · cases hend
  · rw [withEiDelay_fatal] at hend
    obtain ⟨hpend, hclear⟩ := eiDelay_of_exec hu hend
    exact ⟨fun h' => by simp [hhalted] at h', fun _ => hpend, fun _ => hclear⟩

section
variable {s u : State} (hu : exec (instrAt s) (fetched s (lengthOf (opcodeAt s))) = .next u)
include hu

/-- An instruction step sets `halted` for HALT and, under STRICT_OPCODE, for an illegal opcode (10_state R30). -/
theorem halted_of_exec (hs : s.halted = false) (ht : u.halted = true) :
    opcodeAt s = 0x76#8 ∨ opcodeAt s ∈ illegalBytes ∧ s.params.strictOpcode = true := by
  by_cases hmem : .halted ∈ statusWritten (instrAt s)
  · rcases halted_mem_statusWritten hmem with hi | ⟨op, hrow⟩
    · exact .inl (opcodeAt_of_instrAt hi rfl)
    · have hop : opcodeAt s = op :=
        opcodeAt_of_instrAt rfl (congrArg List.head? (firstInstr_of_mem_illegalRows hrow 0 0).2)
      obtain rfl := Host.Outcome.next.inj (hu.symm.trans (exec_of_mem_illegalRows hrow _))
      rw [illegalOpcode_halted, Bool.or_eq_true] at ht
      exact .inr ⟨hop ▸ List.mem_map_of_mem (f := Prod.snd) hrow, ht.resolve_left (by simp [fetched, hs])⟩
  · have hkept : u.halted = s.halted :=
      status_of_exec (s := fetched s _) (instrAt_ne_prefixCb s) hu (p := .halted) (by decide) hmem
    simp [hkept, hs] at ht

/-- STOP sets `stopped`, and no other instruction writes it (10_state R31). -/
theorem stopped_of_exec_instrAt :
    u.stopped = s.stopped ∨ opcodeAt s = 0x10#8 ∧ u.stopped = true := by
  by_cases hi : instrAt s = .stop
  · have hop : opcodeAt s = 0x10#8 := opcodeAt_of_instrAt hi rfl
    rw [hi] at hu
    obtain rfl := Host.Outcome.next.inj hu
    exact .inr ⟨hop, rfl⟩
  · exact .inl (stopped_of_exec (s := fetched s _) (instrAt_ne_prefixCb s) hu hi)

/-- IME changes in a step of DI or RETI or by the EI delay (10_state R28). -/
theorem ime_of_exec_instrAt (hne : (withEiDelay s u).ime ≠ s.ime) :
    opcodeAt s = 0xF3#8 ∨ opcodeAt s = 0xD9#8 ∨ s.imePending = true := by
  by_contra hnot
  rw [not_or, not_or, Bool.not_eq_true] at hnot
  obtain ⟨hdi, hreti, hpend⟩ := hnot
  rw [withEiDelay_of_not_pending (.inl hpend)] at hne
  exact hne (ime_of_exec (s := fetched s _) (instrAt_ne_prefixCb s) hu (mt instrAt_eq_di_iff.1 hdi)
    fun hi => hreti (opcodeAt_of_instrAt hi rfl))

end

/-- Settles O10: an idle step and a stopped fetch write no latch but `fatal`, an instruction those that are its own. -/
theorem latchesChangeOnlyByTheirWriters : Obligations.LatchesChangeOnlyByTheirWriters := by
  intro s t h
  obtain ⟨_, -, -, hmoves⟩ := moves_of_step h
  obtain ⟨hfatal, ⟨hhalted, rfl⟩ | ⟨hhalted, n, -, -, -, rfl⟩ | ⟨hhalted, -, u, hu, rfl⟩⟩ := step_cases h
  all_goals have hstrict := fun ht => (hmoves.fatal ht).resolve_left (by simp [hfatal])
  · exact ⟨id, id, fun hs => by simp [hhalted] at hs, fun hs ht => by simp [hs] at ht, fun hne => absurd rfl hne,
      hstrict⟩
  · exact ⟨id, id, fun hs ht => by simp [stoppedAt, fetched, hs] at ht,
      fun hs ht => by simp [stoppedAt, fetched, hs] at ht, fun hne => absurd rfl hne, hstrict⟩
  · rw [withEiDelay_halted, withEiDelay_stopped]
    have hstopped := stopped_of_exec_instrAt hu
    refine ⟨fun hs => by simp [hhalted] at hs, fun hs => ?_, halted_of_exec hu, fun hs ht => ?_,
      ime_of_exec_instrAt hu, hstrict⟩
    · exact hstopped.elim (·.trans hs) And.right
    · exact hstopped.elim (fun hkept => by simp [hkept, hs] at ht) And.left

/-! The flags. -/

theorem flagBit_congr {s t : State} (h : t.f = s.f) (bit : Nat) : flagBit t bit = flagBit s bit := by
  rw [flagBit, flagBit, h]

section
variable {i : Instr} {s t : State}

/-- The instructions that write flags and leave Z answer one state, with the Z of before. -/
theorem flagZ_of_exec (hz : (writesH i && !writesZ i) = true) (h : exec i s = .next t) : t.flagZ = s.flagZ := by
  cases i with
  | addHlRr rr =>
    obtain rfl := Host.Outcome.next.inj h
    exact flagZ_setFlags (s.setHl (addHl16 s.hl (s.getReg16 rr)).r) _
  | scf | ccf =>
    obtain rfl := Host.Outcome.next.inj h
    exact flagZ_setFlags s _
  | cpl =>
    obtain rfl := Host.Outcome.next.inj h
    exact flagZ_setFlags (s.setReg8 .a _) _
  | _ => cases hz

/-- As `flagZ_of_exec`, of N: DAA alone. -/
theorem flagN_of_exec (hn : (writesH i && !writesN i) = true) (h : exec i s = .next t) : t.flagN = s.flagN := by
  cases i with
  | daa =>
    obtain rfl := Host.Outcome.next.inj h
    exact flagN_setFlags (s.setReg8 .a _) _
  | _ => cases hn

/-- A read-modify-write whose flags keep C, wherever it ends. -/
theorem flagC_of_modifyHl {f : Byte → State → AluResult} (hf : ∀ v t, (f v t).fl.c = t.flagC)
    (h : modifyHl f s = .next t) : t.flagC = s.flagC := by
  rcases readThen_cases h with ⟨-, h⟩ | ⟨-, h⟩
  · cases h
    exact flagC_chargeRead ..
  · rcases writeThen_cases h with ⟨-, h⟩ | ⟨-, h⟩
    · cases h
      simp [State.flagC]
    · cases h
      rw [flagC_setFlags, hf, flagC_chargeRead]

/-- As `flagZ_of_exec`, of C. -/
theorem flagC_of_exec (hc : (writesH i && !writesC i) = true) (h : exec i s = .next t) : t.flagC = s.flagC := by
  cases i with
  | incR r | decR r =>
    obtain rfl := Host.Outcome.next.inj h
    exact flagC_setFlags (s.setReg8 r _) _
  | cpl =>
    obtain rfl := Host.Outcome.next.inj h
    exact flagC_setFlags (s.setReg8 .a _) _
  | bitR bit r =>
    obtain rfl := Host.Outcome.next.inj h
    exact flagC_setFlags s _
  | incHl =>
    rw [exec, execIncHl] at h
    exact flagC_of_modifyHl (fun _ _ => rfl) h
  | decHl =>
    rw [exec, execDecHl] at h
    exact flagC_of_modifyHl (fun _ _ => rfl) h
  | bitHl bit =>
    rw [exec, execBitHl] at h
    rcases readThen_cases h with ⟨-, h⟩ | ⟨-, h⟩
    · cases h
      exact flagC_chargeRead ..
    · cases h
      rw [flagC_setFlags, bitFlags, flagC_chargeRead]
  | _ => cases hc

end

/-- Settles O19: an instruction that writes no flag leaves F, and the few that write some of the flags keep the rest. -/
theorem flagsChangeOnlyWhereListed : Obligations.FlagsChangeOnlyWhereListed := by
  intro i s t hi h
  cases hH : writesH i with
  | false =>
    have hf : t.f = s.f := status_of_exec hi h (p := .flags) (by decide) fun hmem => by
      simp [writesH_of_flags_mem hmem] at hH
    exact ⟨fun _ => flagBit_congr hf 7, fun _ => flagBit_congr hf 6, fun _ => flagBit_congr hf 5,
      fun _ => flagBit_congr hf 4⟩
  | true =>
    simp only [flagBit_eq_toNat]
    refine ⟨fun hz => ?_, fun hn => ?_, nofun, fun hc => ?_⟩
    · exact congrArg Bool.toNat (flagZ_of_exec (by rw [hH, hz]; rfl) h)
    · exact congrArg Bool.toNat (flagN_of_exec (by rw [hH, hn]; rfl) h)
    · exact congrArg Bool.toNat (flagC_of_exec (by rw [hH, hc]; rfl) h)

end Sys2Proof.Claims
end

section
/-! The bus by address (20_memory R50 to R65), and accesses that end an instruction under STRICT_ACCESS (20_memory
R54): each instruction by the access it begins with. -/

namespace Sys2Proof.Claims

open Sys2Proof.Machine

/-! The address map. -/

/-- The ten ranges (20_memory R51). -/
theorem regionOf_cases (addr : Word) :
    regionOf addr = .cartridge ∧ addr.toNat ≤ 0x7FFF ∨
      regionOf addr = .vram ∧ 0x8000 ≤ addr.toNat ∧ addr.toNat ≤ 0x9FFF ∨
      regionOf addr = .externalRam ∧ 0xA000 ≤ addr.toNat ∧ addr.toNat ≤ 0xBFFF ∨
      regionOf addr = .wram ∧ 0xC000 ≤ addr.toNat ∧ addr.toNat ≤ 0xDFFF ∨
      regionOf addr = .echoRam ∧ 0xE000 ≤ addr.toNat ∧ addr.toNat ≤ 0xFDFF ∨
      regionOf addr = .oam ∧ 0xFE00 ≤ addr.toNat ∧ addr.toNat ≤ 0xFE9F ∨
      regionOf addr = .unusable ∧ 0xFEA0 ≤ addr.toNat ∧ addr.toNat ≤ 0xFEFF ∨
      regionOf addr = .io ∧ 0xFF00 ≤ addr.toNat ∧ addr.toNat ≤ 0xFF7F ∨
      regionOf addr = .hram ∧ 0xFF80 ≤ addr.toNat ∧ addr.toNat ≤ 0xFFFE ∨
      regionOf addr = .ie ∧ 0xFFFF ≤ addr.toNat := by
  unfold regionOf
  grind

/-- Settles O20: `LD A,(a16)` is one `readByte`, whose result and record are those of the range of the address. -/
theorem busReadsByRegion : Obligations.BusReadsByRegion := by
  intro s addr hgo
  obtain ⟨-, -, -, hload, -⟩ := loadsReadMemory
  obtain ⟨t, ⟨-, hexec, hticks⟩, ha, -, hdiag, hframe⟩ := hload addr s hgo
  refine ⟨t, hexec, ha.trans ?_, hdiag.trans (congrArg (s.diag ++ ·) ?_), Nat.add_right_cancel hticks,
    hframe.mono (by simp)⟩
  · rcases regionOf_cases addr with h | h | h | h | h | h | h | h | h | h <;> grind [readByte, ioRead]
  · rcases regionOf_cases addr with h | h | h | h | h | h | h | h | h | h <;> grind [accessRecord, Region.legal]

/-- Settles O21: `LD (a16),A` is one `writeByte`, whose cells and record are those of the range of the address. -/
theorem busWritesByRegion : Obligations.BusWritesByRegion := by
  intro s addr hwf hgo
  obtain ⟨-, -, -, -, hstore, -⟩ := storesWriteMemory
  obtain ⟨t, ⟨-, hexec, hticks⟩, ⟨-, hcells, -⟩, hdiag, hframe⟩ := hstore addr s hgo
  refine ⟨t, hexec, fun x => (hcells hwf x).trans ?_, hdiag.trans (congrArg (s.diag ++ ·) ?_),
    Nat.add_right_cancel hticks, hframe.mono (by simp)⟩
  · rcases regionOf_cases addr with h | h | h | h | h | h | h | h | h | h <;> grind [storesAt]
  · rcases regionOf_cases addr with h | h | h | h | h | h | h | h | h | h <;> grind [accessRecord, Region.legal]

theorem exec_ldAA16 {s : State} {addr : Word} (hgo : accessStops s addr = false) :
    exec (.ldAA16 addr) s = .next ((chargeRead addr s).setReg8 .a (readByte s addr)) := by
  rw [exec, execLdAA16, loadReg8, readThen_of_go hgo]

theorem exec_ldA16A {s : State} {addr : Word} (hgo : accessStops s addr = false) :
    exec (.ldA16A addr) s = .next (writeByte addr s.a s) := by
  rw [exec, execLdA16A, storeByte, writeThen_of_go hgo]

/-- What is read at an address after a write to it, by its region (20_memory R63). -/
theorem readByte_writeByte_by_region {s : State} (hwf : s.mem.wf = true) (addr : Word) (v : Byte) :
    readByte (writeByte addr v s) addr =
      match regionOf addr with
      | .wram | .hram | .ie => v
      | .io => if addr.toNat - 0xFF00 ∈ s.params.ioUnmapped then 0xFF#8 else v
      | .cartridge => if s.params.cartWrite = .store then v else s.mem.get addr.toNat
      | .vram | .externalRam | .echoRam | .oam | .unusable => 0x00#8 := by
  have hcell := get_mem_writeByte hwf addr v addr.toNat
  cases hr : regionOf addr with
  | cartridge | wram | io | hram | ie => simp [readByte, ioRead, hr, hcell, storesAt]
  | vram | externalRam | echoRam | oam | unusable => simp [readByte, hr]

/-- Settles O22: the load reads what `writeByte` has left, and a load leaves what it reads. -/
theorem writtenByteReadsBack : Obligations.WrittenByteReadsBack := by
  intro s addr hwf hgo
  refine ⟨⟨_, _, exec_ldA16A hgo, exec_ldAA16 (by rw [accessStops_writeByte, hgo]), ?_⟩,
    ⟨_, _, exec_ldAA16 hgo, exec_ldAA16 ?_, ?_⟩⟩
  · exact readByte_writeByte_by_region hwf addr s.a
  · rw [accessStops_congr (s := s) (by simp), hgo]
  · exact (readByte_setReg8 ..).trans (readByte_chargeRead ..)

/-! The access an instruction begins with. -/

section
variable {i : Instr}

theorem exec_of_readsHlFirst (h : readsHlFirst i = true) (s : State) : ∃ k, exec i s = readThen s.hl s k := by
  have withHl_reads (f) : ∃ k, withHl s f = readThen s.hl s k := ⟨_, rfl⟩
  have modifyHl_reads (f) : ∃ k, modifyHl f s = readThen s.hl s k := ⟨_, rfl⟩
  have shiftHl_reads (f) : ∃ k, shiftHl f s = readThen s.hl s k := ⟨_, rfl⟩
  have rewriteHl_reads (f) : ∃ k, rewriteHl f s = readThen s.hl s k := ⟨_, rfl⟩
  have loadReg8_reads (r) : ∃ k, loadReg8 r s.hl s = readThen s.hl s k := ⟨_, rfl⟩
  cases i with simp only [exec]
  | ldRHl r => exact loadReg8_reads r
  | ldAHlInc | ldAHlDec | bitHl _ => exact ⟨_, rfl⟩
  | incHl | decHl => exact modifyHl_reads _
  | addAHl | adcAHl | subAHl | sbcAHl | andAHl | xorAHl | orAHl | cpAHl => exact withHl_reads _
  | rlcHl | rrcHl | rlHl | rrHl | slaHl | sraHl | swapHl | srlHl => exact shiftHl_reads _
  | resHl _ | setHl _ => exact rewriteHl_reads _
  | _ => cases h

theorem exec_of_writesHlFirst (h : writesHlFirst i = true) (s : State) :
    ∃ v k, exec i s = writeThen s.hl v s k := by
  cases i with simp only [exec]
  | ldHlR _ | ldHlN8 _ | ldHlIncA | ldHlDecA => exact ⟨_, _, rfl⟩
  | _ => cases h

/-- A push, call or RST passes one internal cycle before its two bytes (45_stack R222, 46_control R236). -/
theorem exec_of_pushesIn {s : State} (h : pushesIn s i = true) :
    ∃ k, exec i s = push16Then (pushedWord s i) (internal 1 s) k := by
  cases i with simp only [exec]
  | pushRr rr => exact ⟨_, by rw [pushedWord, ofNat_valuePair]; rfl⟩
  | pushAf => exact ⟨_, by rw [pushedWord, ofNat_af]; rfl⟩
  | callA16 _ | rstVec _ => exact ⟨_, rfl⟩
  | callCcA16 cc _ => exact ⟨_, if_pos ((cond_eq_holds s cc).trans h)⟩
  | _ => cases h

/-- A return on a condition passes one internal cycle before its two bytes (46_control R239). -/
theorem exec_of_popsIn {s : State} (h : popsIn s i = true) :
    ∃ n k, 4 * n = cyclesBeforePop i ∧ exec i s = pop16Then (internal n s) k := by
  cases i with simp only [exec]
  | popRr rr => exact ⟨0, fun v t => .next (t.setPair rr v), rfl, rfl⟩
  | popAf => exact ⟨0, fun v t => .next (t.setAf v), rfl, rfl⟩
  | ret => exact ⟨0, fun v t => .next (internal 1 (t.setPc v)), rfl, rfl⟩
  | reti => exact ⟨0, fun v t => .next (internal 1 ((t.setPc v).setIme true)), rfl, rfl⟩
  | retCc cc =>
    exact ⟨1, fun v t => .next (internal 1 (t.setPc v)), rfl, if_pos ((cond_eq_holds s cc).trans h)⟩
  | _ => cases h

end

/-! The end at an access. -/

section
variable {s : State} {addr : Word}

theorem readThen_eq_stoppedAt (h : accessStops s addr = true) (k : Byte → State → Result) :
    readThen addr s k = .next (stoppedAt s addr .read) := by
  rw [readThen_of_stop h, chargeRead_of_stop h]

theorem writeThen_eq_stoppedAt (h : accessStops s addr = true) (v : Byte) (k : State → Result) :
    writeThen addr v s k = .next (stoppedAt s addr .write) := by
  rw [writeThen_of_stop h, writeByte_of_stop h]

end

/-- Settles O23: each instruction ends at the access it begins with, a push with SP already moved. -/
theorem strictAccessEndsTheInstruction : Obligations.StrictAccessEndsTheInstruction := by
  refine ⟨fun i s hi h => ?_, fun i s hi h => ?_, fun s addr h => ⟨?_, ?_, ?_⟩, fun s h => ⟨?_, ?_⟩,
    fun s h => ⟨?_, ?_⟩, fun i s hi h => ?_, fun i s hi h => ?_⟩
  · obtain ⟨k, hk⟩ := exec_of_readsHlFirst hi s
    rw [hk, readThen_eq_stoppedAt h]
  · obtain ⟨v, k, hk⟩ := exec_of_writesHlFirst hi s
    rw [hk, writeThen_eq_stoppedAt h]
  · rw [exec, execLdAA16, loadReg8, readThen_eq_stoppedAt h]
  · rw [exec, execLdA16A, storeByte, writeThen_eq_stoppedAt h]
  · rw [exec, execLdA16Sp, writeThen_eq_stoppedAt h]
  · rw [exec, execLdABc, loadReg8, readThen_eq_stoppedAt h]
  · rw [exec, execLdBcA, storeByte, writeThen_eq_stoppedAt h]
  · rw [exec, execLdADe, loadReg8, readThen_eq_stoppedAt h]
  · rw [exec, execLdDeA, storeByte, writeThen_eq_stoppedAt h]
  · obtain ⟨n, k, hn, hk⟩ := exec_of_popsIn hi
    rw [hk, ← hn, pop16Then_of_stop_low (s := internal n s) h, internal_sp, chargeRead_of_stop (s := internal n s) h]
    rfl
  · obtain ⟨k, hk⟩ := exec_of_pushesIn hi
    rw [hk, push16Then_of_stop_high (s := internal 1 s) _ h, pushedHigh, internal_sp,
      writeByte_of_stop (s := internal 1 s) h]
    rfl

/-- Under STRICT_ACCESS an access that goes on is legal. -/
theorem legal_of_go {s : State} {addr : Word} (hstrict : s.params.strictAccess = true)
    (hgo : accessStops s addr = false) : (regionOf addr).legal = true := by
  simpa [accessStops, hstrict] using hgo

theorem chargeRead_of_legal {addr : Word} (h : (regionOf addr).legal = true) (s : State) :
    chargeRead addr s = s.tick 4 := if_pos h

/-- A legal write leaves no record. -/
theorem changesOnly_writeByte_of_legal {s : State} {addr : Word} (h : (regionOf addr).legal = true) (v : Byte) :
    ChangesOnly [.memory, .ticks] s (writeByte addr v s) := by
  intro p hp
  by_cases hdiag : p = .diag
  · subst hdiag
    rw [Part.same, writeByte_diag, accessRecord, if_pos h, List.append_nil]
  · exact changesOnly_writeByte (accessStops_of_legal h) v p (by simp_all)

/-- Settles O59: the first byte is legal, so it leaves no record and is stored or read; the second one ends it. -/
theorem strictAccessEndsAtTheSecondByte : Obligations.StrictAccessEndsAtTheSecondByte := by
  refine ⟨fun i s hi hgo hstop => ?_, fun i s hi hgo hstop => ?_, fun s addr hgo hstop => ?_⟩
  all_goals have hlegal := legal_of_go (strictAccess_of_accessStops s hstop) hgo
  · obtain ⟨k, hk⟩ := exec_of_pushesIn hi
    refine ⟨(writeByte (s.sp - 1#16) (hiByte (pushedWord s i)) (internal 1 s)).setSp (s.sp - 2#16), rfl, ?_, ?_, ?_,
      ?_⟩
    · rw [setSp_ticks, writeByte_ticks, internal_ticks]
    · rw [← hiByte_eq_highByte]
      exact ((stored_writeByte (internal 1 s) _ _).congr_left rfl rfl).congr rfl rfl
    · exact (((changesOnly_internal s 1).append (changesOnly_writeByte_of_legal hlegal _)).append
        (changesOnly_setSp _ _)).mono (by simp)
    · rw [hk, push16Then_of_stop_low (s := internal 1 s) _ hgo hstop, pushed, writeByte_of_stop]
      · rfl
      · exact (accessStops_writeByte ..).trans hstop
  · obtain ⟨n, k, hn, hk⟩ := exec_of_popsIn hi
    have hstop' : accessStops ((internal n s).tick 4) (s.sp + 1#16) = true := hstop
    rw [hk, ← hn, pop16Then_of_stop_high (s := internal n s) hgo hstop, internal_sp, chargeRead_of_legal hlegal,
      chargeRead_of_stop hstop', Nat.add_right_comm]
    rfl
  · have hstop' : accessStops (writeByte addr (loByte s.sp) s) (addr + 1#16) = true := by
      rw [accessStops_writeByte, hstop]
    refine ⟨writeByte addr (loByte s.sp) s, writeByte_ticks .., ?_, changesOnly_writeByte_of_legal hlegal _, ?_⟩
    · rw [← loByte_eq_lowByte]
      exact stored_writeByte s _ _
    · rw [exec, execLdA16Sp, writeThen_of_go hgo, writeThen_eq_stoppedAt hstop']

/-! Reset, and the pairs. -/

/-- Settles O13: no flag outside the high nibble, nothing recorded, and the rest as given. -/
theorem resetMeetsInvariant : Obligations.ResetMeetsInvariant := by
  have hinit (p : Params) (m : Memory) (hp : p.wf = true) (hm : m.wf = true) : (State.init p m).Inv :=
    ⟨by simp [State.flagNibbleClear, State.init], hm, hp, by simp [State.fatalExact, State.init]⟩
  exact ⟨hinit, hinit _ _ (by decide) rfl⟩

/-- Settles O14: `State.init` writes them out (70_reset_and_hazards R340). -/
theorem resetValues : Obligations.ResetValues :=
  fun _ _ => ⟨by simp [value16, State.init], by simp [value16, State.init], by simp [value16, State.init], rfl, rfl,
    rfl, rfl, rfl, rfl, rfl, rfl, rfl, rfl, rfl, rfl, rfl⟩

/-- Settles O24, from the views of a pair as its two registers. -/
theorem pairsAreViewsOfRegisters : Obligations.PairsAreViewsOfRegisters := fun s v =>
  ⟨toNat_joinBytes .., toNat_joinBytes .., toNat_joinBytes .., toNat_joinBytes ..,
    fun rr => ⟨(value16_eq_toNat s rr).symm, value16_setReg16 s rr v, changesOnly_setReg16 s rr v⟩⟩

end Sys2Proof.Claims
end

section
/-! The rest of the loads and of the 8-bit and 16-bit arithmetic (40_load R133, R140, 41_alu8 R165 to R176, 42_alu16
R190 to R192). -/

namespace Sys2Proof.Claims

open Sys2Proof.Machine

/-- Settles O27: `LDH A,(C)` is `loadReg8` at the high page address of C. -/
theorem highPageLoadThroughC : Obligations.HighPageLoadThroughC :=
  loadsByte_of_loadReg8 rfl rfl fun s => by rw [← highPage_eq]; rfl

/-- Settles O29: two stores in a row at addresses that differ by one. -/
theorem storeOfSpIsLittleEndian : Obligations.StoreOfSpIsLittleEndian := by
  intro s addr hlow hhigh
  have hne : addr ≠ addr + 1#16 := by bv_omega
  have hhigh' : accessStops (writeByte addr (loByte s.sp) s) (addr + 1#16) = false := by
    rw [accessStops_writeByte, hhigh]
  refine ⟨writeByte (addr + 1#16) (hiByte s.sp) (writeByte addr (loByte s.sp) s), ⟨withWord_eq _ addr, ?_, ?_⟩, ?_,
    ?_, ((changesOnly_writeByte hlow _).append (changesOnly_writeByte hhigh' _)).mono (by simp)⟩
  · rw [exec, execLdA16Sp, writeThen_of_go hlow, writeThen_of_go hhigh', writeByte_sp]
  · rw [writeByte_ticks, writeByte_ticks]
    rfl
  · rw [← loByte_eq_lowByte, ← hiByte_eq_highByte]
    exact storedTwo_writeByte s hne _ _
  · rw [writeByte_diag, writeByte_diag]

/-! Logic and comparison on A. -/

/-- Settles O35: each of the three writes its bitwise operation with constant N, H and C. -/
theorem logicOpsWriteBitsAndFlags : Obligations.LogicOpsWriteBitsAndFlags := by
  refine ⟨?_, ?_, ?_⟩
  · refine aluForms_of_writeA (result := fun a v _ => and8 a v) ⟨fun _ => rfl, rfl, fun _ => rfl⟩
      ⟨fun _ _ => rfl, fun _ => rfl, fun _ _ => rfl⟩ fun s t v ha hf => ?_
    rw [ha]
    exact ⟨fun k _ => BitVec.getLsbD_and, hasFlags_of_f hf⟩
  · refine aluForms_of_writeA (result := fun a v _ => xor8 a v) ⟨fun _ => rfl, rfl, fun _ => rfl⟩
      ⟨fun _ _ => rfl, fun _ => rfl, fun _ _ => rfl⟩ fun s t v ha hf => ?_
    rw [ha]
    exact ⟨fun k _ => BitVec.getLsbD_xor, hasFlags_of_f hf⟩
  · refine aluForms_of_writeA (result := fun a v _ => or8 a v) ⟨fun _ => rfl, rfl, fun _ => rfl⟩
      ⟨fun _ _ => rfl, fun _ => rfl, fun _ _ => rfl⟩ fun s t v ha hf => ?_
    rw [ha]
    exact ⟨fun k _ => BitVec.getLsbD_or, hasFlags_of_f hf⟩

/-- Settles O36: CP writes the flags of `sub8` with no borrow-in and nothing else. -/
theorem cpSetsFlagsAndKeepsA : Obligations.CpSetsFlagsAndKeepsA := by
  refine aluForms_of_run (run := fun v s => s.setFlags (sub8 s.a v false).fl) ⟨fun _ => rfl, rfl, fun _ => rfl⟩
    ⟨fun _ _ => rfl, fun _ => rfl, fun _ _ => rfl⟩ (fun _ s => changesOnly_setFlags s _) (by decide) (by decide)
    fun s t v ha _ => subFlags_of_sub8 (cin := false) ?_
  rw [ha]
  exact byte_and_mask _

/-! 16-bit arithmetic. -/

theorem decide_flagBit_eq_one (s : State) (bit : Nat) : decide (flagBit s bit = 1) = s.f.getLsbD bit := by
  rw [flagBit_eq_toNat]
  cases s.f.getLsbD bit <;> rfl

/-- Settles O37: HL takes the sum, and the flags are those of `addHl16` with Z as it was. -/
theorem addHlKeepsZ : Obligations.AddHlKeepsZ := by
  intro s rr
  refine ⟨_, ⟨by rw [encode, opcodeWith_reg16], rfl, by simp⟩, ?_, ?_,
    ((changesOnly_setHl s _).append (changesOnly_setFlags _ _)).append (changesOnly_internal _ 1)⟩
  · rw [value16_eq_toNat s, value16_eq_toNat s]
    exact (value16_setHl s _).trans (BitVec.toNat_ofNat ..)
  · rw [value16_eq_toNat, value16_eq_toNat, decide_flagBit_eq_one]
    let w := addHl16 s.hl (s.getReg16 rr)
    exact hasFlags_of_f (fl := { z := s.flagZ, n := false, h := w.h, c := w.c }) (byte_and_mask _)

/-- Settles O38: DEC adds 65535 modulo 65536. -/
theorem incDec16WriteNoFlag : Obligations.IncDec16WriteNoFlag := by
  refine ⟨fun s rr => ?_, fun s rr => ?_⟩
  · refine ⟨_, ⟨by rw [encode, opcodeWith_reg16], rfl, by simp⟩, ?_,
      ((changesOnly_setReg16 s rr _).append (changesOnly_internal _ 1)).mono (by simp)⟩
    rw [value16_eq_toNat s]
    exact (value16_setReg16 s rr _).trans (BitVec.toNat_add ..)
  · refine ⟨_, ⟨by rw [encode, opcodeWith_reg16], rfl, by simp⟩, ?_,
      ((changesOnly_setReg16 s rr _).append (changesOnly_internal _ 1)).mono (by simp)⟩
    rw [value16_eq_toNat s]
    exact (value16_setReg16 s rr _).trans (by rw [sub_one_eq_add]; exact BitVec.toNat_add ..)

end Sys2Proof.Claims
end

section
/-! The rotates, shifts and SWAP (44_rotate_a R210 to R213, 48_cb_prefix R270 to R286), from what each makes of a byte
and the carry in the arithmetic of the statements. -/

namespace Sys2Proof.Claims

open Sys2Proof.Machine

/-- `f` makes `result` of a byte and the carry, and shifts out the bit `out`. -/
def Shifts (f : Byte → Bool → ShiftResult) (result out : Nat → Nat → Nat) : Prop :=
  ∀ (v : Byte) (c : Bool), (f v c).r.toNat = result v.toNat c.toNat ∧ (f v c).out = decide (out v.toNat c.toNat = 1)

theorem shifts_rlc8 : Shifts (fun v _ => rlc8 v) (fun v _ => (v * 2 + v / 128) % 256) (fun v _ => v / 128) := by
  unfold Shifts
  decide

theorem shifts_rrc8 : Shifts (fun v _ => rrc8 v) (fun v _ => v / 2 + v % 2 * 128) (fun v _ => v % 2) := by
  unfold Shifts
  decide

theorem shifts_rl8 : Shifts rl8 (fun v c => (v * 2 + c) % 256) (fun v _ => v / 128) := by
  unfold Shifts
  decide

theorem shifts_rr8 : Shifts rr8 (fun v c => v / 2 + c * 128) (fun v _ => v % 2) := by
  unfold Shifts
  decide

theorem shifts_sla8 : Shifts (fun v _ => sla8 v) (fun v _ => v * 2 % 256) (fun v _ => v / 128) := by
  unfold Shifts
  decide

theorem shifts_sra8 : Shifts (fun v _ => sra8 v) (fun v _ => v / 2 + v / 128 * 128) (fun v _ => v % 2) := by
  unfold Shifts
  decide

theorem shifts_srl8 : Shifts (fun v _ => srl8 v) (fun v _ => v / 2) (fun v _ => v % 2) := by
  unfold Shifts
  decide

theorem shifts_swap8 : Shifts (fun v _ => swap8 v) (fun v _ => v % 16 * 16 + v / 16) (fun _ _ => 0) := by
  unfold Shifts
  decide

section
variable {f : Byte → Bool → ShiftResult} {result out : Nat → Nat → Nat}

theorem rotatesA_of_shifts {i : Instr} {op : Byte} (hencode : encode i = [op])
    (hexec : ∀ s, exec i s = rotateA (f s.a s.flagC) s) (hf : Shifts f result out) : RotatesA i op result out := by
  intro s
  obtain ⟨hresult, hout⟩ := hf s.a s.flagC
  refine ⟨_, ⟨hencode, hexec s, by simp⟩, ?_, ?_, (changesOnly_setReg8 s .a _).append (changesOnly_setFlags _ _)⟩
  · rw [carry_eq_toNat_flagC]
    exact hresult
  · rw [carry_eq_toNat_flagC, ← hout]
    exact hasFlags_of_f (fl := (f s.a s.flagC).aFlags) (byte_and_mask _)

/-- The CB forms of `f`; they write the flags of R270 with its result (48_cb_prefix R270). -/
theorem shiftForms_of_shifts {reg : Reg8 → Instr} {hl : Instr} {base : Nat}
    (hencode : (∀ r, encode (reg r) = [0xCB#8, opcodeWith base 1 r.index]) ∧
      encode hl = [0xCB#8, BitVec.ofNat 8 base + 6#8])
    (hexec : (∀ s r, exec (reg r) s = shiftReg r (f (s.getReg8 r) s.flagC) s) ∧ ∀ s, exec hl s = shiftHl f s)
    (hf : Shifts f result out) : ShiftForms reg hl (BitVec.ofNat 8 base) result out := by
  refine rewriteForms_of_modifyHl (f := fun v c => ⟨(f v c).r, (f v c).cbFlags⟩)
    ⟨fun r => by rw [hencode.1, opcodeWith_reg8, BitVec.one_mul], hencode.2⟩ ⟨fun _ => rfl, rfl⟩ hexec
    (fun s v => ?_) fun s t v htf => ?_
  · rw [carry_eq_toNat_flagC]
    exact (hf v s.flagC).1
  · obtain ⟨hresult, hout⟩ := hf v s.flagC
    have hz : (f v s.flagC).cbFlags.z = decide (result v.toNat s.flagC.toNat = 0) := by
      rw [← hresult]
      exact decide_eq_decide.2 BitVec.toNat_inj.symm
    rw [carry_eq_toNat_flagC, ← hout, ← hz]
    exact hasFlags_of_f htf

end

/-- Settles O40: each of the four is `rotateA` of its rotation. -/
theorem rotatesOnAClearZ : Obligations.RotatesOnAClearZ :=
  ⟨rotatesA_of_shifts rfl (fun _ => rfl) shifts_rlc8, rotatesA_of_shifts rfl (fun _ => rfl) shifts_rrc8,
    rotatesA_of_shifts rfl (fun _ => rfl) shifts_rl8, rotatesA_of_shifts rfl (fun _ => rfl) shifts_rr8⟩

/-- Settles O55: each of the four is `shiftReg` and `shiftHl` of its rotation. -/
theorem cbRotatesMoveOneBit : Obligations.CbRotatesMoveOneBit :=
  ⟨shiftForms_of_shifts ⟨fun _ => rfl, rfl⟩ ⟨fun _ _ => rfl, fun _ => rfl⟩ shifts_rlc8,
    shiftForms_of_shifts ⟨fun _ => rfl, rfl⟩ ⟨fun _ _ => rfl, fun _ => rfl⟩ shifts_rrc8,
    shiftForms_of_shifts ⟨fun _ => rfl, rfl⟩ ⟨fun _ _ => rfl, fun _ => rfl⟩ shifts_rl8,
    shiftForms_of_shifts ⟨fun _ => rfl, rfl⟩ ⟨fun _ _ => rfl, fun _ => rfl⟩ shifts_rr8⟩

/-- Settles O56: each of the four is `shiftReg` and `shiftHl` of its shift. -/
theorem cbShiftsAndSwap : Obligations.CbShiftsAndSwap :=
  ⟨shiftForms_of_shifts ⟨fun _ => rfl, rfl⟩ ⟨fun _ _ => rfl, fun _ => rfl⟩ shifts_sla8,
    shiftForms_of_shifts ⟨fun _ => rfl, rfl⟩ ⟨fun _ _ => rfl, fun _ => rfl⟩ shifts_sra8,
    shiftForms_of_shifts ⟨fun _ => rfl, rfl⟩ ⟨fun _ _ => rfl, fun _ => rfl⟩ shifts_srl8,
    shiftForms_of_shifts ⟨fun _ => rfl, rfl⟩ ⟨fun _ _ => rfl, fun _ => rfl⟩ shifts_swap8⟩

end Sys2Proof.Claims
end

section
/-! The rest of the stack and control transfer (46_control R246, 45_stack R221 to R225), and the miscellaneous
instructions (47_misc R250 to R259, 30_encoding R102). -/

namespace Sys2Proof.Claims

open Sys2Proof.Machine

/-! Frames of the latches. -/

section
variable (s : State)

theorem changesOnly_setIme (b : Bool) : ChangesOnly [.ime] s (s.setIme b) := by
  intro p hp
  cases p with
  | ime => simp at hp
  | reg r => cases r <;> rfl
  | _ => simp [Part.same]

theorem changesOnly_setImePending (b : Bool) : ChangesOnly [.imePending] s (s.setImePending b) := by
  intro p hp
  cases p with
  | imePending => simp at hp
  | reg r => cases r <;> rfl
  | _ => simp [Part.same]

theorem changesOnly_setHalted (b : Bool) : ChangesOnly [.halted] s (s.setHalted b) := by
  intro p hp
  cases p with
  | halted => simp at hp
  | reg r => cases r <;> rfl
  | _ => simp [Part.same]

theorem changesOnly_setStopped (b : Bool) : ChangesOnly [.stopped] s (s.setStopped b) := by
  intro p hp
  cases p with
  | stopped => simp at hp
  | reg r => cases r <;> rfl
  | _ => simp [Part.same]

theorem changesOnly_illegalOpcode (op : Byte) : ChangesOnly [.diag, .halted] s (illegalOpcode op s) := by
  intro p hp
  cases p with
  | diag | halted => simp at hp
  | reg r => cases r <;> rfl
  | memory => exact ⟨rfl, fun _ => rfl⟩
  | _ => simp [Part.same]

end

/-! RETI, and what a push or a call leaves for a pop or a return. -/

/-- Settles O47: the return writes PC and then IME. -/
theorem retiReturnsAndSetsIme : Obligations.RetiReturnsAndSetsIme := by
  intro s hgo
  refine ⟨internal 1 (((popped s).setPc (stackWord s)).setIme true), ⟨rfl, ?_, ?_⟩, (popped_spec s).congr rfl rfl,
    toNat_stackWord s, fun _ => rfl,
    ((((changesOnly_popped hgo).append (changesOnly_setPc _ _)).append (changesOnly_setIme _ true)).append
      (changesOnly_internal _ 1)).mono (by simp)⟩
  · rw [exec, execReti, returnWith, pop16Then_of_go hgo.1 hgo.2]
  · rw [internal_ticks, setIme_ticks, setPc_ticks, popped_ticks]
    rfl

/-- A part that has its old value after all need not be listed. -/
theorem ChangesOnly.drop {s t : State} {p : Part} {parts : List Part} (h : ChangesOnly (p :: parts) s t)
    (hp : p.same s t) : ChangesOnly parts s t := by
  intro q hq
  by_cases hqp : q = p
  · exact hqp ▸ hp
  · exact h q (by simp [hqp, hq])

/-- An address that stores and reads back is in a legal region (20_memory R63). -/
theorem legal_of_readsBack {s : State} {addr : Word} (h : readsBack s addr = true) :
    (regionOf addr).legal = true := by
  have hkeeps := (Bool.and_eq_true_iff.1 h).1
  cases hr : regionOf addr <;> simp [keepsByte, hr, Region.legal] at hkeeps ⊢

theorem toNat_mod_of_flagNibbleClear {s : State} (h : s.flagNibbleClear = true) : s.f.toNat % 16 = 0 := by
  have hand : (s.f &&& 0x0F#8).toNat = 0 := congrArg BitVec.toNat (of_decide_eq_true h)
  rw [BitVec.toNat_and] at hand
  exact (Nat.and_two_pow_sub_one_eq_mod s.f.toNat 4).symm.trans hand

theorem toNat_highByte_mul_add_lowByte (v : Word) : (highByte v).toNat * 256 + (lowByte v).toNat = v.toNat := by
  rw [← hiByte_eq_highByte, ← loByte_eq_lowByte, ← toNat_joinBytes, joinBytes_hiByte_loByte]

section
variable {s t u : State} {v : Word} (hwf : s.mem.wf = true) (hhigh : readsBack s (s.sp - 1#16) = true)
  (hlow : readsBack s (s.sp - 2#16) = true)
include hhigh hlow

theorem pushGoes_of_readsBack : PushGoes s :=
  ⟨accessStops_of_legal (legal_of_readsBack hhigh), accessStops_of_legal (legal_of_readsBack hlow)⟩

include hwf

/-- After a push to storage a pop goes, finds the pushed word, and leaves SP and the log as before the push. -/
theorem pop_of_pushed (hpush : Pushed s t v) : PopGoes t ∧ topOfStack t = v.toNat ∧
    ∀ u : State, Popped t u → u.sp = s.sp ∧ u.diag = s.diag := by
  obtain ⟨hsp, ⟨-, -, hreadHigh, hreadLow⟩, hdiag⟩ := hpush
  have hnext : t.sp + 1#16 = s.sp - 1#16 := by
    rw [hsp]
    bv_omega
  have hlegalHigh := legal_of_readsBack hhigh
  have hlegalLow := legal_of_readsBack hlow
  refine ⟨⟨?_, ?_⟩, ?_, fun u hpop => ?_⟩
  · rw [hsp]
    exact accessStops_of_legal hlegalLow
  · rw [hnext]
    exact accessStops_of_legal hlegalHigh
  · rw [topOfStack, hnext, hsp, hreadHigh hwf hhigh, hreadLow hwf hlow, toNat_highByte_mul_add_lowByte]
  · obtain ⟨hsp', -, -, hdiag'⟩ := hpop
    refine ⟨?_, ?_⟩
    · rw [hsp', hsp]
      bv_omega
    · rw [hdiag', hdiag, hnext, hsp]
      simp [accessRecord, hlegalHigh, hlegalLow]

/-- A pair pushed and then popped, from the statements about PUSH and POP. -/
theorem popRr_of_pushRr (rr rr' : StackPair) :
    ∃ t u : State, exec (.pushRr rr) s = .next t ∧ exec (.popRr rr') t = .next u ∧
      valuePair u rr' = valuePair s rr ∧ u.sp = s.sp ∧ ChangesOnly (.memory :: .ticks :: partsPair rr') s u := by
  obtain ⟨hpushes, -⟩ := pushWritesTwoBytes
  obtain ⟨hpops, -⟩ := popReadsTwoBytes
  obtain ⟨t, ⟨-, hexec, -⟩, hpush, hframe⟩ := hpushes rr s (pushGoes_of_readsBack hhigh hlow)
  obtain ⟨hgo, htop, hback⟩ := pop_of_pushed hwf hhigh hlow hpush
  obtain ⟨u, ⟨-, hexec', -⟩, hpop, hvalue, hframe'⟩ := hpops t rr' hgo
  obtain ⟨hsp, hdiag⟩ := hback u hpop
  have hall : ChangesOnly (.sp :: .diag :: .memory :: .ticks :: partsPair rr') s u :=
    (hframe.append hframe').mono fun p => by simp only [List.mem_append, List.mem_cons]; tauto
  refine ⟨t, u, hexec, hexec', ?_, hsp, (hall.drop hsp).drop hdiag⟩
  have hword : topOfStack t = (BitVec.ofNat 16 (valuePair s rr)).toNat := htop
  rw [hvalue, hword, ofNat_valuePair, valuePair_eq_toNat]

/-- AF pushed and then popped: the mask on F takes nothing away where its low nibble is clear (10_state R21). -/
theorem popAf_of_pushAf (hclear : s.flagNibbleClear = true) :
    ∃ t u : State, exec .pushAf s = .next t ∧ exec .popAf t = .next u ∧ ChangesOnly [.memory, .ticks] s u := by
  obtain ⟨-, hpushes⟩ := pushWritesTwoBytes
  obtain ⟨-, hpops⟩ := popReadsTwoBytes
  obtain ⟨t, ⟨-, hexec, -⟩, hpush, hframe⟩ := hpushes s (pushGoes_of_readsBack hhigh hlow)
  obtain ⟨hgo, htop, hback⟩ := pop_of_pushed hwf hhigh hlow hpush
  obtain ⟨u, ⟨-, hexec', -⟩, hpop, ha, hf, hframe'⟩ := hpops t hgo
  obtain ⟨hsp, hdiag⟩ := hback u hpop
  have hword : topOfStack t = (BitVec.ofNat 16 (s.a.toNat * 256 + s.f.toNat)).toNat := htop
  have htop' : topOfStack t = s.a.toNat * 256 + s.f.toNat := by
    rw [hword, BitVec.toNat_ofNat]
    omega
  have hlow : s.f.toNat % 16 = 0 := toNat_mod_of_flagNibbleClear hclear
  have ha' : u.a = s.a := BitVec.eq_of_toNat_eq (by rw [ha, htop']; omega)
  have hf' : u.f = s.f := BitVec.eq_of_toNat_eq (by rw [hf, htop']; omega)
  have hall : ChangesOnly [.sp, .diag, .reg .a, .flags, .memory, .ticks] s u :=
    (hframe.append hframe').mono (by simp)
  exact ⟨t, u, hexec, hexec', (((hall.drop hsp).drop hdiag).drop ha').drop hf'⟩

/-- RET after CALL, from the statements about the two. -/
theorem ret_of_callA16 (addr : Word) :
    ∃ t u : State, exec (.callA16 addr) s = .next t ∧ t.pc = addr ∧ exec .ret t = .next u ∧
      ChangesOnly [.memory, .ticks] s u := by
  obtain ⟨hcalls, -⟩ := callsPushReturnAddress
  obtain ⟨hreturns, -⟩ := returnsPopPc
  obtain ⟨t, ⟨-, hexec, -⟩, hpush, hpc, hframe⟩ := hcalls s addr (pushGoes_of_readsBack hhigh hlow)
  obtain ⟨hgo, htop, hback⟩ := pop_of_pushed hwf hhigh hlow hpush
  obtain ⟨u, ⟨-, hexec', -⟩, hpop, hpc', -, hframe'⟩ := hreturns t hgo
  obtain ⟨hsp, hdiag⟩ := hback u hpop
  have hpc'' : u.pc = s.pc := BitVec.eq_of_toNat_eq (hpc'.trans htop)
  have hall : ChangesOnly [.pc, .sp, .diag, .memory, .ticks] s u := (hframe.append hframe').mono (by simp)
  exact ⟨t, u, hexec, hpc, hexec', ((hall.drop hpc'').drop hsp).drop hdiag⟩

end

/-- Settles O43, from `popRr_of_pushRr` and `popAf_of_pushAf`. -/
theorem popAfterPushRestores : Obligations.PopAfterPushRestores := fun _ hwf hhigh hlow =>
  ⟨popRr_of_pushRr hwf hhigh hlow, popAf_of_pushAf hwf hhigh hlow⟩

/-- Settles O48, from `ret_of_callA16`. -/
theorem retAfterCallComesBack : Obligations.RetAfterCallComesBack := fun _ addr hwf hhigh hlow =>
  ret_of_callA16 hwf hhigh hlow addr

/-! Latches, and the illegal opcodes. -/

/-- Settles O49: each of the five is the write of its latches, `NOP` of none. -/
theorem latchInstructions : Obligations.LatchInstructions := fun s =>
  ⟨⟨s, ⟨rfl, rfl, rfl⟩, changesOnly_refl s⟩,
    ⟨s.setHalted true, ⟨rfl, rfl, rfl⟩, rfl, changesOnly_setHalted s true⟩,
    ⟨s.setStopped true, ⟨rfl, rfl, rfl⟩, rfl, changesOnly_setStopped s true⟩,
    ⟨(s.setIme false).setImePending false, ⟨rfl, rfl, rfl⟩, rfl, rfl,
      (changesOnly_setIme s false).append (changesOnly_setImePending _ false)⟩,
    ⟨s.setImePending true, ⟨rfl, rfl, rfl⟩, rfl, changesOnly_setImePending s true⟩⟩

/-- Settles O53: every row runs as `illegalOpcode` of its byte. -/
theorem illegalOpcodesAreLogged : Obligations.IllegalOpcodesAreLogged := by
  intro row hrow s
  obtain ⟨-, hencode⟩ := firstInstr_of_mem_illegalRows hrow 0 0
  refine ⟨illegalOpcode row.2 s, ⟨hencode, exec_of_mem_illegalRows hrow s, rfl⟩, rfl, fun h => ?_, fun h => ?_,
    changesOnly_illegalOpcode s row.2⟩
  · rw [illegalOpcode_halted, h, Bool.or_true]
  · rw [illegalOpcode_halted, h, Bool.or_false]

/-! Flags and decimal adjustment. -/

theorem decide_carry_eq_zero (s : State) : decide (carry s = 0) = !s.flagC := by
  rw [carry_eq_toNat_flagC]
  cases s.flagC <;> rfl

theorem hasFlags_setFlags (t : State) (fl : Flags) : HasFlags (t.setFlags fl) fl.z fl.n fl.h fl.c :=
  hasFlags_of_f (byte_and_mask fl)

/-- Settles O50: `SCF` and `CCF` write the flags, `CPL` also A. -/
theorem flagInstructions : Obligations.FlagInstructions := by
  intro s
  rw [decide_flagBit_eq_one, decide_carry_eq_zero, decide_carry_eq_one]
  exact ⟨⟨_, ⟨rfl, rfl, rfl⟩, hasFlags_setFlags s { z := s.flagZ, n := false, h := false, c := true },
      changesOnly_setFlags s _⟩,
    ⟨_, ⟨rfl, rfl, rfl⟩, hasFlags_setFlags s { z := s.flagZ, n := false, h := false, c := !s.flagC },
      changesOnly_setFlags s _⟩,
    ⟨_, ⟨rfl, rfl, rfl⟩, (congrArg BitVec.toNat BitVec.xor_allOnes).trans BitVec.toNat_not,
      hasFlags_setFlags (s.setReg8 .a _) { z := s.flagZ, n := true, h := true, c := s.flagC },
      (changesOnly_setReg8 s .a _).append (changesOnly_setFlags _ _)⟩⟩

theorem toNat_daaAdjust (low high : Bool) :
    (daaAdjust low high).toNat = (if low then 0x06 else 0) + (if high then 0x60 else 0) := by
  cases low <;> cases high <;> rfl

section
variable (a : Byte) (h c : Bool)

theorem toNat_daa8_add : (daa8 a false h c).r.toNat =
    (a.toNat + (if h ∨ a.toNat % 16 > 0x09 then 0x06 else 0) + (if c ∨ a.toNat > 0x99 then 0x60 else 0)) % 256 := by
  have hr : (daa8 a false h c).r = a + daaAdjust (h || decide (a.toNat % 16 > 0x09)) (c || decide (a.toNat > 0x99)) :=
    rfl
  rw [hr, BitVec.toNat_add, toNat_daaAdjust, Nat.add_assoc]
  simp only [Bool.or_eq_true, decide_eq_true_eq]

theorem toNat_daa8_sub : (daa8 a true h c).r.toNat =
    (a.toNat + 256 - (if h then 0x06 else 0) - (if c then 0x60 else 0)) % 256 := by
  have hr : (daa8 a true h c).r = a - daaAdjust h c := rfl
  rw [hr, BitVec.toNat_sub, toNat_daaAdjust]
  cases h <;> cases c <;> simp <;> omega

theorem daa8_z (n : Bool) : (daa8 a n h c).fl.z = decide ((daa8 a n h c).r.toNat = 0) :=
  decide_eq_decide.2 BitVec.toNat_inj.symm

/-- C after DAA (47_misc R259). -/
theorem daa8_c (n : Bool) : (daa8 a n h c).fl.c = if n then c else c || decide (a.toNat > 0x99) := rfl

end

theorem flagBit_eq_one_iff (s : State) (bit : Nat) : flagBit s bit = 1 ↔ s.f.getLsbD bit = true := by
  rw [flagBit_eq_toNat, Bool.toNat_eq_one]

theorem flagBit_eq_zero_iff (s : State) (bit : Nat) : flagBit s bit = 0 ↔ s.f.getLsbD bit = false := by
  rw [flagBit_eq_toNat, Bool.toNat_eq_zero]

/-- Settles O51: `daa8` in the arithmetic of the statement, after an addition and after a subtraction. -/
theorem daaAdjustsA : Obligations.DaaAdjustsA := by
  intro s
  have hH : flagBit s 5 = 1 ↔ s.flagH = true := flagBit_eq_one_iff s 5
  have hC : carry s = 1 ↔ s.flagC = true := flagBit_eq_one_iff s 4
  have hflags := hasFlags_setFlags (s.setReg8 .a (daa8 s.a s.flagN s.flagH s.flagC).r)
    (daa8 s.a s.flagN s.flagH s.flagC).fl
  rw [daa8_z, daa8_c] at hflags
  simp only [hH, hC]
  refine ⟨_, ⟨rfl, rfl, rfl⟩, (changesOnly_setReg8 s .a _).append (changesOnly_setFlags _ _), fun hn => ?_,
    fun hn => ?_⟩
  · have hN : s.flagN = false := (flagBit_eq_zero_iff s 6).1 hn
    have hcarry : (s.flagC || decide (s.a.toNat > 0x99)) = decide (s.flagC = true ∨ s.a.toNat > 0x99) := by simp
    rw [hN] at hflags ⊢
    exact ⟨toNat_daa8_add .., hcarry ▸ hflags⟩
  · have hN : s.flagN = true := (flagBit_eq_one_iff s 6).1 hn
    have hcarry : s.flagC = decide (s.flagC = true) := by simp
    rw [hN] at hflags ⊢
    exact ⟨toNat_daa8_sub .., hcarry ▸ hflags⟩

/-! Decimal arithmetic, digit by digit: DAA adjusts the low digit where the digits carry or borrow, and the high digit
where the numbers do. -/

theorem toNat_bcd {n p q : Nat} (hn : n = 10 * p + q) (hp : p < 10) (hq : q < 10) : (bcd n).toNat = 16 * p + q := by
  rw [bcd, BitVec.toNat_ofNat]
  omega

theorem exists_digits {n : Nat} (h : n < 100) : ∃ p q, p < 10 ∧ q < 10 ∧ n = 10 * p + q :=
  ⟨n / 10, n % 10, by omega, by omega, by omega⟩

section
variable {x y : Nat} (hx : x < 100) (hy : y < 100) {r : Nat}

include hx hy

theorem adjusted_bcd_sum (hr : r = ((bcd x).toNat + (bcd y).toNat) % 256) :
    (r + (if (bcd x).toNat % 16 + (bcd y).toNat % 16 > 0x0F ∨ r % 16 > 0x09 then 0x06 else 0) +
      (if (bcd x).toNat + (bcd y).toNat > 0xFF ∨ r > 0x99 then 0x60 else 0)) % 256 = (bcd ((x + y) % 100)).toNat ∧
      ((bcd x).toNat + (bcd y).toNat > 0xFF ∨ r > 0x99 ↔ x + y ≥ 100) := by
  obtain ⟨p, q, hp, hq, rfl⟩ := exists_digits hx
  obtain ⟨u, v, hu, hv, rfl⟩ := exists_digits hy
  rw [toNat_bcd rfl hp hq, toNat_bcd rfl hu hv] at hr ⊢
  have hlow : (16 * p + q) % 16 + (16 * u + v) % 16 > 0x0F ∨ r % 16 > 0x09 ↔ q + v ≥ 10 := by omega
  have hhigh : 16 * p + q + (16 * u + v) > 0xFF ∨ r > 0x99 ↔ 10 * p + q + (10 * u + v) ≥ 100 := by omega
  refine ⟨?_, hhigh⟩
  simp only [hlow, hhigh]
  split <;> split
  · rw [toNat_bcd (p := p + u - 9) (q := q + v - 10)] <;> omega
  · rw [toNat_bcd (p := p + u + 1) (q := q + v - 10)] <;> omega
  · rw [toNat_bcd (p := p + u - 10) (q := q + v)] <;> omega
  · rw [toNat_bcd (p := p + u) (q := q + v)] <;> omega

theorem adjusted_bcd_difference (hr : r = ((bcd x).toNat + 512 - (bcd y).toNat) % 256) :
    (r + 256 - (if (bcd x).toNat % 16 < (bcd y).toNat % 16 then 0x06 else 0) -
      (if (bcd x).toNat < (bcd y).toNat then 0x60 else 0)) % 256 = (bcd ((x + 100 - y) % 100)).toNat ∧
      ((bcd x).toNat < (bcd y).toNat ↔ x < y) := by
  obtain ⟨p, q, hp, hq, rfl⟩ := exists_digits hx
  obtain ⟨u, v, hu, hv, rfl⟩ := exists_digits hy
  rw [toNat_bcd rfl hp hq, toNat_bcd rfl hu hv] at hr ⊢
  have hlow : (16 * p + q) % 16 < (16 * u + v) % 16 ↔ q < v := by omega
  have hhigh : 16 * p + q < 16 * u + v ↔ 10 * p + q < 10 * u + v := by omega
  refine ⟨?_, hhigh⟩
  simp only [hlow, hhigh]
  split <;> split
  · rw [toNat_bcd (p := p + 9 - u) (q := q + 10 - v)] <;> omega
  · rw [toNat_bcd (p := p - u - 1) (q := q + 10 - v)] <;> omega
  · rw [toNat_bcd (p := p + 10 - u) (q := q - v)] <;> omega
  · rw [toNat_bcd (p := p - u) (q := q - v)] <;> omega

end

/-- The three flags DAA reads and the carry it leaves, from the flags as the statements give them. -/
theorem flagBits_of_hasFlags {t : State} {z n h c : Bool} (hfl : HasFlags t z n h c) :
    flagBit t 6 = n.toNat ∧ (flagBit t 5 = 1 ↔ h = true) ∧ (carry t = 1 ↔ c = true) := by
  rw [HasFlags] at hfl
  rw [carry, flagBit, flagBit, flagBit, hfl]
  clear hfl
  revert z n h c
  decide

/-- Settles O52, from the statements about ADD, SUB and DAA. -/
theorem daaMakesDecimalArithmetic : Obligations.DaaMakesDecimalArithmetic := by
  intro s x y hx hy hsa
  constructor
  · obtain ⟨-, -, hadd⟩ := addWritesSumAndFlags
    obtain ⟨t, ⟨-, hexec, -⟩, ⟨ha, hfl⟩, -⟩ := hadd s (bcd y)
    obtain ⟨hN, hH, hC⟩ := flagBits_of_hasFlags hfl
    obtain ⟨u, ⟨-, hexec', -⟩, -, hdaa, -⟩ := daaAdjustsA t
    obtain ⟨ha', hfl'⟩ := hdaa hN
    obtain ⟨-, -, hC'⟩ := flagBits_of_hasFlags hfl'
    simp only [hH, hC, hsa, decide_eq_true_eq, Nat.add_zero] at ha ha' hC'
    obtain ⟨hsum, hcarry⟩ := adjusted_bcd_sum hx hy ha
    exact ⟨t, u, hexec, hexec', BitVec.eq_of_toNat_eq (ha'.trans hsum), hC'.trans hcarry⟩
  · obtain ⟨-, -, hsub⟩ := subWritesDifferenceAndFlags
    obtain ⟨t, ⟨-, hexec, -⟩, ⟨ha, hfl⟩, -⟩ := hsub s (bcd y)
    obtain ⟨hN, hH, hC⟩ := flagBits_of_hasFlags hfl
    obtain ⟨u, ⟨-, hexec', -⟩, -, -, hdaa⟩ := daaAdjustsA t
    obtain ⟨ha', hfl'⟩ := hdaa hN
    obtain ⟨-, -, hC'⟩ := flagBits_of_hasFlags hfl'
    simp only [hH, hC, hsa, decide_eq_true_eq, Nat.add_zero, Nat.sub_zero] at ha ha' hC'
    obtain ⟨hdiff, hborrow⟩ := adjusted_bcd_difference hx hy ha
    exact ⟨t, u, hexec, hexec', BitVec.eq_of_toNat_eq (ha'.trans hdiff), hC'.trans hborrow⟩

end Sys2Proof.Claims
end
